-- ==== Sys2Proof/Word.lean ====
section
/-! DEFINITION. The two widths of the block (00_scope.md R8, R10): bytes (u8) and addresses (u16). -/

namespace Sys2Proof

/-- A u8: a data register, a byte of memory, an opcode byte (R8). -/
abbrev Byte := BitVec 8

/-- A u16: an address, the program counter, a 16-bit operand (R8). -/
abbrev Word := BitVec 16

end Sys2Proof
end

