-- ==== Sys2Proof/Syntax.lean ====
section
/-! DEFINITION. The instructions as data (30_encoding.md R90, R106, R107): one constructor of `Instr` for each documented
row of spec/opcode_table.json, holding the operand byte or the 16-bit operand of its encoding, and one constructor for the
105 rows "(unimplemented)", which share one mnemonic, one rule and one entry (FATAL). Beside it the names the dispatch
table of R131 is made of: mnemonics, mode tags, and operands (a mode together with its operand bytes). -/

namespace Sys2Proof

/-- An instruction of the block (30_encoding.md R106): the name is the mnemonic and, where the mnemonic has several modes,
the mode. `v` is an immediate value, `zp` a zero-page address or pointer address, `addr` a 16-bit operand, `disp` a branch
displacement. -/
inductive Instr where
  | adcImm (v : Byte)             -- 0x69 ADC IMM (R160)
  | adcZp0 (zp : Byte)            -- 0x65 ADC ZP0 (R160)
  | adcZpx (zp : Byte)            -- 0x75 ADC ZPX (R160)
  | adcAbs (addr : Word)          -- 0x6D ADC ABS (R160)
  | adcAbx (addr : Word)          -- 0x7D ADC ABX (R160)
  | adcAby (addr : Word)          -- 0x79 ADC ABY (R160)
  | adcIzx (zp : Byte)            -- 0x61 ADC IZX (R160)
  | adcIzy (zp : Byte)            -- 0x71 ADC IZY (R160)
  | sbcImm (v : Byte)             -- 0xE9 SBC IMM (R161)
  | sbcZp0 (zp : Byte)            -- 0xE5 SBC ZP0 (R161)
  | sbcZpx (zp : Byte)            -- 0xF5 SBC ZPX (R161)
  | sbcAbs (addr : Word)          -- 0xED SBC ABS (R161)
  | sbcAbx (addr : Word)          -- 0xFD SBC ABX (R161)
  | sbcAby (addr : Word)          -- 0xF9 SBC ABY (R161)
  | sbcIzx (zp : Byte)            -- 0xE1 SBC IZX (R161)
  | sbcIzy (zp : Byte)            -- 0xF1 SBC IZY (R161)
  | cmpImm (v : Byte)             -- 0xC9 CMP IMM (R162)
  | cmpZp0 (zp : Byte)            -- 0xC5 CMP ZP0 (R162)
  | cmpZpx (zp : Byte)            -- 0xD5 CMP ZPX (R162)
  | cmpAbs (addr : Word)          -- 0xCD CMP ABS (R162)
  | cmpAbx (addr : Word)          -- 0xDD CMP ABX (R162)
  | cmpAby (addr : Word)          -- 0xD9 CMP ABY (R162)
  | cmpIzx (zp : Byte)            -- 0xC1 CMP IZX (R162)
  | cmpIzy (zp : Byte)            -- 0xD1 CMP IZY (R162)
  | cpxImm (v : Byte)             -- 0xE0 CPX IMM (R163)
  | cpxZp0 (zp : Byte)            -- 0xE4 CPX ZP0 (R163)
  | cpxAbs (addr : Word)          -- 0xEC CPX ABS (R163)
  | cpyImm (v : Byte)             -- 0xC0 CPY IMM (R164)
  | cpyZp0 (zp : Byte)            -- 0xC4 CPY ZP0 (R164)
  | cpyAbs (addr : Word)          -- 0xCC CPY ABS (R164)
  | aslAcc                        -- 0x0A ASL ACC (R170)
  | aslZp0 (zp : Byte)            -- 0x06 ASL ZP0 (R170)
  | aslZpx (zp : Byte)            -- 0x16 ASL ZPX (R170)
  | aslAbs (addr : Word)          -- 0x0E ASL ABS (R170)
  | aslAbx (addr : Word)          -- 0x1E ASL ABX (R170)
  | lsrAcc                        -- 0x4A LSR ACC (R171)
  | lsrZp0 (zp : Byte)            -- 0x46 LSR ZP0 (R171)
  | lsrZpx (zp : Byte)            -- 0x56 LSR ZPX (R171)
  | lsrAbs (addr : Word)          -- 0x4E LSR ABS (R171)
  | lsrAbx (addr : Word)          -- 0x5E LSR ABX (R171)
  | rolAcc                        -- 0x2A ROL ACC (R172)
  | rolZp0 (zp : Byte)            -- 0x26 ROL ZP0 (R172)
  | rolZpx (zp : Byte)            -- 0x36 ROL ZPX (R172)
  | rolAbs (addr : Word)          -- 0x2E ROL ABS (R172)
  | rolAbx (addr : Word)          -- 0x3E ROL ABX (R172)
  | rorAcc                        -- 0x6A ROR ACC (R173)
  | rorZp0 (zp : Byte)            -- 0x66 ROR ZP0 (R173)
  | rorZpx (zp : Byte)            -- 0x76 ROR ZPX (R173)
  | rorAbs (addr : Word)          -- 0x6E ROR ABS (R173)
  | rorAbx (addr : Word)          -- 0x7E ROR ABX (R173)
  | bcc (disp : Byte)             -- 0x90 BCC REL (R181)
  | bcs (disp : Byte)             -- 0xB0 BCS REL (R182)
  | beq (disp : Byte)             -- 0xF0 BEQ REL (R183)
  | bmi (disp : Byte)             -- 0x30 BMI REL (R184)
  | bne (disp : Byte)             -- 0xD0 BNE REL (R185)
  | bpl (disp : Byte)             -- 0x10 BPL REL (R186)
  | bvc (disp : Byte)             -- 0x50 BVC REL (R187)
  | bvs (disp : Byte)             -- 0x70 BVS REL (R188)
  | jmpAbs (addr : Word)          -- 0x4C JMP ABS (R190)
  | jmpInd (addr : Word)          -- 0x6C JMP IND (R190)
  | jsr (addr : Word)             -- 0x20 JSR ABS (R191)
  | rts                           -- 0x60 RTS IMP (R192)
  | brk                           -- 0x00 BRK IMP (R193)
  | rti                           -- 0x40 RTI IMP (R194)
  | pha                           -- 0x48 PHA IMP (R201)
  | php                           -- 0x08 PHP IMP (R202)
  | pla                           -- 0x68 PLA IMP (R203)
  | plp                           -- 0x28 PLP IMP (R204)
  | ldaImm (v : Byte)             -- 0xA9 LDA IMM (R210)
  | ldaZp0 (zp : Byte)            -- 0xA5 LDA ZP0 (R210)
  | ldaZpx (zp : Byte)            -- 0xB5 LDA ZPX (R210)
  | ldaAbs (addr : Word)          -- 0xAD LDA ABS (R210)
  | ldaAbx (addr : Word)          -- 0xBD LDA ABX (R210)
  | ldaAby (addr : Word)          -- 0xB9 LDA ABY (R210)
  | ldaIzx (zp : Byte)            -- 0xA1 LDA IZX (R210)
  | ldaIzy (zp : Byte)            -- 0xB1 LDA IZY (R210)
  | ldxImm (v : Byte)             -- 0xA2 LDX IMM (R211)
  | ldxZp0 (zp : Byte)            -- 0xA6 LDX ZP0 (R211)
  | ldxZpy (zp : Byte)            -- 0xB6 LDX ZPY (R211)
  | ldxAbs (addr : Word)          -- 0xAE LDX ABS (R211)
  | ldxAby (addr : Word)          -- 0xBE LDX ABY (R211)
  | ldyImm (v : Byte)             -- 0xA0 LDY IMM (R212)
  | ldyZp0 (zp : Byte)            -- 0xA4 LDY ZP0 (R212)
  | ldyZpx (zp : Byte)            -- 0xB4 LDY ZPX (R212)
  | ldyAbs (addr : Word)          -- 0xAC LDY ABS (R212)
  | ldyAbx (addr : Word)          -- 0xBC LDY ABX (R212)
  | staZp0 (zp : Byte)            -- 0x85 STA ZP0 (R213)
  | staZpx (zp : Byte)            -- 0x95 STA ZPX (R213)
  | staAbs (addr : Word)          -- 0x8D STA ABS (R213)
  | staAbx (addr : Word)          -- 0x9D STA ABX (R213)
  | staAby (addr : Word)          -- 0x99 STA ABY (R213)
  | staIzx (zp : Byte)            -- 0x81 STA IZX (R213)
  | staIzy (zp : Byte)            -- 0x91 STA IZY (R213)
  | stxZp0 (zp : Byte)            -- 0x86 STX ZP0 (R214)
  | stxZpy (zp : Byte)            -- 0x96 STX ZPY (R214)
  | stxAbs (addr : Word)          -- 0x8E STX ABS (R214)
  | styZp0 (zp : Byte)            -- 0x84 STY ZP0 (R215)
  | styZpx (zp : Byte)            -- 0x94 STY ZPX (R215)
  | styAbs (addr : Word)          -- 0x8C STY ABS (R215)
  | tax                           -- 0xAA TAX IMP (R216)
  | tay                           -- 0xA8 TAY IMP (R217)
  | txa                           -- 0x8A TXA IMP (R218)
  | tya                           -- 0x98 TYA IMP (R219)
  | tsx                           -- 0xBA TSX IMP (R220)
  | txs                           -- 0x9A TXS IMP (R221)
  | andImm (v : Byte)             -- 0x29 AND IMM (R230)
  | andZp0 (zp : Byte)            -- 0x25 AND ZP0 (R230)
  | andZpx (zp : Byte)            -- 0x35 AND ZPX (R230)
  | andAbs (addr : Word)          -- 0x2D AND ABS (R230)
  | andAbx (addr : Word)          -- 0x3D AND ABX (R230)
  | andAby (addr : Word)          -- 0x39 AND ABY (R230)
  | andIzx (zp : Byte)            -- 0x21 AND IZX (R230)
  | andIzy (zp : Byte)            -- 0x31 AND IZY (R230)
  | oraImm (v : Byte)             -- 0x09 ORA IMM (R231)
  | oraZp0 (zp : Byte)            -- 0x05 ORA ZP0 (R231)
  | oraZpx (zp : Byte)            -- 0x15 ORA ZPX (R231)
  | oraAbs (addr : Word)          -- 0x0D ORA ABS (R231)
  | oraAbx (addr : Word)          -- 0x1D ORA ABX (R231)
  | oraAby (addr : Word)          -- 0x19 ORA ABY (R231)
  | oraIzx (zp : Byte)            -- 0x01 ORA IZX (R231)
  | oraIzy (zp : Byte)            -- 0x11 ORA IZY (R231)
  | eorImm (v : Byte)             -- 0x49 EOR IMM (R232)
  | eorZp0 (zp : Byte)            -- 0x45 EOR ZP0 (R232)
  | eorZpx (zp : Byte)            -- 0x55 EOR ZPX (R232)
  | eorAbs (addr : Word)          -- 0x4D EOR ABS (R232)
  | eorAbx (addr : Word)          -- 0x5D EOR ABX (R232)
  | eorAby (addr : Word)          -- 0x59 EOR ABY (R232)
  | eorIzx (zp : Byte)            -- 0x41 EOR IZX (R232)
  | eorIzy (zp : Byte)            -- 0x51 EOR IZY (R232)
  | bitZp0 (zp : Byte)            -- 0x24 BIT ZP0 (R233)
  | bitAbs (addr : Word)          -- 0x2C BIT ABS (R233)
  | incZp0 (zp : Byte)            -- 0xE6 INC ZP0 (R240)
  | incZpx (zp : Byte)            -- 0xF6 INC ZPX (R240)
  | incAbs (addr : Word)          -- 0xEE INC ABS (R240)
  | incAbx (addr : Word)          -- 0xFE INC ABX (R240)
  | decZp0 (zp : Byte)            -- 0xC6 DEC ZP0 (R241)
  | decZpx (zp : Byte)            -- 0xD6 DEC ZPX (R241)
  | decAbs (addr : Word)          -- 0xCE DEC ABS (R241)
  | decAbx (addr : Word)          -- 0xDE DEC ABX (R241)
  | inx                           -- 0xE8 INX IMP (R242)
  | iny                           -- 0xC8 INY IMP (R243)
  | dex                           -- 0xCA DEX IMP (R244)
  | dey                           -- 0x88 DEY IMP (R245)
  | clc                           -- 0x18 CLC IMP (R250)
  | cld                           -- 0xD8 CLD IMP (R251)
  | cli                           -- 0x58 CLI IMP (R252)
  | clv                           -- 0xB8 CLV IMP (R253)
  | sec                           -- 0x38 SEC IMP (R254)
  | sed                           -- 0xF8 SED IMP (R255)
  | sei                           -- 0x78 SEI IMP (R256)
  | nop                           -- 0xEA NOP IMP (R257)
  | unimplemented (opcode : Byte)   -- the 105 bytes of R107 (R138)
  deriving DecidableEq, Repr

/-- The 56 mnemonics (R106) and the fatal entry (R107). -/
inductive Mnemonic where
  | adc | sbc | cmp | cpx | cpy | asl | lsr | rol
  | ror | bcc | bcs | beq | bmi | bne | bpl | bvc
  | bvs | jmp | jsr | rts | brk | rti | pha | php
  | pla | plp | lda | ldx | ldy | sta | stx | sty
  | tax | tay | txa | tya | tsx | txs | and | ora
  | eor | bit | inc | dec | inx | iny | dex | dey
  | clc | cld | cli | clv | sec | sed | sei | nop
  | unimplemented
  deriving DecidableEq, Repr

/-- The thirteen mode tags (30_encoding.md R93). -/
inductive Mode where
  | imp | acc | imm | zp0 | zpx | zpy | abs | abx | aby | ind | izx | izy | rel
  deriving DecidableEq, Repr

/-- An instruction's operand: its mode with the operand bytes the resolver of that mode consumes (R92). -/
inductive Operand where
  | imp
  | acc
  | imm (v : Byte)
  | zp0 (zp : Byte)
  | zpx (zp : Byte)
  | zpy (zp : Byte)
  | abs (addr : Word)
  | abx (addr : Word)
  | aby (addr : Word)
  | ind (addr : Word)
  | izx (zp : Byte)
  | izy (zp : Byte)
  | rel (disp : Byte)
  deriving DecidableEq, Repr

end Sys2Proof
end

