-- ==== Sys2Proof/Decode.lean ====
section
/-! DEFINITION. Encoding (30_encoding.md R90 to R111): the 256-entry opcode map laid out as the map of R106, the decoder read
from it, the columns of the dispatch table (mnemonic, operand with its mode, size), the encoder written from the Encoding
lines of the instruction rules, and the byte-order helpers of 00_scope.md R10. -/

namespace Sys2Proof

/-- `hi(w) = w[15:8]` (R10). -/
def hi (w : Word) : Byte := w.extractLsb' 8 8

/-- `lo(w) = w[7:0]` (R10). -/
def lo (w : Word) : Byte := w.extractLsb' 0 8

/-- `w16(lo, hi) = hi * 256 + lo`, the little-endian assembly (R10, 20_memory.md R62). -/
def w16 (lo hi : Byte) : Word := hi ++ lo

/-- `zext_16(b)` (R10). -/
def zext16 (b : Byte) : Word := b.setWidth 16

/-- `sext_16(b)` (R10). -/
def sext16 (b : Byte) : Word := b.signExtend 16

/-- The mode tag of an operand. -/
def Operand.mode : Operand → Mode
  | .imp => .imp
  | .acc => .acc
  | .imm _ => .imm
  | .zp0 _ => .zp0
  | .zpx _ => .zpx
  | .zpy _ => .zpy
  | .abs _ => .abs
  | .abx _ => .abx
  | .aby _ => .aby
  | .ind _ => .ind
  | .izx _ => .izx
  | .izy _ => .izy
  | .rel _ => .rel

/-- The size in bytes of an instruction of a mode, opcode included (R90). -/
def Mode.size : Mode → Nat
  | .imp | .acc => 1
  | .imm | .zp0 | .zpx | .zpy | .izx | .izy | .rel => 2
  | .abs | .abx | .aby | .ind => 3

/-- The column "mnemonic" of the table of R106. -/
def Instr.mnemonic : Instr → Mnemonic
  | .adcImm _ | .adcZp0 _ | .adcZpx _ | .adcAbs _ | .adcAbx _ | .adcAby _ | .adcIzx _ | .adcIzy _ => .adc
  | .sbcImm _ | .sbcZp0 _ | .sbcZpx _ | .sbcAbs _ | .sbcAbx _ | .sbcAby _ | .sbcIzx _ | .sbcIzy _ => .sbc
  | .cmpImm _ | .cmpZp0 _ | .cmpZpx _ | .cmpAbs _ | .cmpAbx _ | .cmpAby _ | .cmpIzx _ | .cmpIzy _ => .cmp
  | .cpxImm _ | .cpxZp0 _ | .cpxAbs _ => .cpx
  | .cpyImm _ | .cpyZp0 _ | .cpyAbs _ => .cpy
  | .aslAcc | .aslZp0 _ | .aslZpx _ | .aslAbs _ | .aslAbx _ => .asl
  | .lsrAcc | .lsrZp0 _ | .lsrZpx _ | .lsrAbs _ | .lsrAbx _ => .lsr
  | .rolAcc | .rolZp0 _ | .rolZpx _ | .rolAbs _ | .rolAbx _ => .rol
  | .rorAcc | .rorZp0 _ | .rorZpx _ | .rorAbs _ | .rorAbx _ => .ror
  | .bcc _ => .bcc
  | .bcs _ => .bcs
  | .beq _ => .beq
  | .bmi _ => .bmi
  | .bne _ => .bne
  | .bpl _ => .bpl
  | .bvc _ => .bvc
  | .bvs _ => .bvs
  | .jmpAbs _ | .jmpInd _ => .jmp
  | .jsr _ => .jsr
  | .rts => .rts
  | .brk => .brk
  | .rti => .rti
  | .pha => .pha
  | .php => .php
  | .pla => .pla
  | .plp => .plp
  | .ldaImm _ | .ldaZp0 _ | .ldaZpx _ | .ldaAbs _ | .ldaAbx _ | .ldaAby _ | .ldaIzx _ | .ldaIzy _ => .lda
  | .ldxImm _ | .ldxZp0 _ | .ldxZpy _ | .ldxAbs _ | .ldxAby _ => .ldx
  | .ldyImm _ | .ldyZp0 _ | .ldyZpx _ | .ldyAbs _ | .ldyAbx _ => .ldy
  | .staZp0 _ | .staZpx _ | .staAbs _ | .staAbx _ | .staAby _ | .staIzx _ | .staIzy _ => .sta
  | .stxZp0 _ | .stxZpy _ | .stxAbs _ => .stx
  | .styZp0 _ | .styZpx _ | .styAbs _ => .sty
  | .tax => .tax
  | .tay => .tay
  | .txa => .txa
  | .tya => .tya
  | .tsx => .tsx
  | .txs => .txs
  | .andImm _ | .andZp0 _ | .andZpx _ | .andAbs _ | .andAbx _ | .andAby _ | .andIzx _ | .andIzy _ => .and
  | .oraImm _ | .oraZp0 _ | .oraZpx _ | .oraAbs _ | .oraAbx _ | .oraAby _ | .oraIzx _ | .oraIzy _ => .ora
  | .eorImm _ | .eorZp0 _ | .eorZpx _ | .eorAbs _ | .eorAbx _ | .eorAby _ | .eorIzx _ | .eorIzy _ => .eor
  | .bitZp0 _ | .bitAbs _ => .bit
  | .incZp0 _ | .incZpx _ | .incAbs _ | .incAbx _ => .inc
  | .decZp0 _ | .decZpx _ | .decAbs _ | .decAbx _ => .dec
  | .inx => .inx
  | .iny => .iny
  | .dex => .dex
  | .dey => .dey
  | .clc => .clc
  | .cld => .cld
  | .cli => .cli
  | .clv => .clv
  | .sec => .sec
  | .sed => .sed
  | .sei => .sei
  | .nop => .nop
  | .unimplemented _ => .unimplemented

/-- The column "mode" of the table of R106, with the operand bytes. DESIGN CHOICE (log 15), unsafe: the table gives an illegal
byte no mode; the model gives it IMP, so that its size is 1. No resolver runs for it (R107). -/
def Instr.operand : Instr → Operand
  | .adcImm v => .imm v
  | .adcZp0 zp => .zp0 zp
  | .adcZpx zp => .zpx zp
  | .adcAbs addr => .abs addr
  | .adcAbx addr => .abx addr
  | .adcAby addr => .aby addr
  | .adcIzx zp => .izx zp
  | .adcIzy zp => .izy zp
  | .sbcImm v => .imm v
  | .sbcZp0 zp => .zp0 zp
  | .sbcZpx zp => .zpx zp
  | .sbcAbs addr => .abs addr
  | .sbcAbx addr => .abx addr
  | .sbcAby addr => .aby addr
  | .sbcIzx zp => .izx zp
  | .sbcIzy zp => .izy zp
  | .cmpImm v => .imm v
  | .cmpZp0 zp => .zp0 zp
  | .cmpZpx zp => .zpx zp
  | .cmpAbs addr => .abs addr
  | .cmpAbx addr => .abx addr
  | .cmpAby addr => .aby addr
  | .cmpIzx zp => .izx zp
  | .cmpIzy zp => .izy zp
  | .cpxImm v => .imm v
  | .cpxZp0 zp => .zp0 zp
  | .cpxAbs addr => .abs addr
  | .cpyImm v => .imm v
  | .cpyZp0 zp => .zp0 zp
  | .cpyAbs addr => .abs addr
  | .aslAcc => .acc
  | .aslZp0 zp => .zp0 zp
  | .aslZpx zp => .zpx zp
  | .aslAbs addr => .abs addr
  | .aslAbx addr => .abx addr
  | .lsrAcc => .acc
  | .lsrZp0 zp => .zp0 zp
  | .lsrZpx zp => .zpx zp
  | .lsrAbs addr => .abs addr
  | .lsrAbx addr => .abx addr
  | .rolAcc => .acc
  | .rolZp0 zp => .zp0 zp
  | .rolZpx zp => .zpx zp
  | .rolAbs addr => .abs addr
  | .rolAbx addr => .abx addr
  | .rorAcc => .acc
  | .rorZp0 zp => .zp0 zp
  | .rorZpx zp => .zpx zp
  | .rorAbs addr => .abs addr
  | .rorAbx addr => .abx addr
  | .bcc disp => .rel disp
  | .bcs disp => .rel disp
  | .beq disp => .rel disp
  | .bmi disp => .rel disp
  | .bne disp => .rel disp
  | .bpl disp => .rel disp
  | .bvc disp => .rel disp
  | .bvs disp => .rel disp
  | .jmpAbs addr => .abs addr
  | .jmpInd addr => .ind addr
  | .jsr addr => .abs addr
  | .rts => .imp
  | .brk => .imp
  | .rti => .imp
  | .pha => .imp
  | .php => .imp
  | .pla => .imp
  | .plp => .imp
  | .ldaImm v => .imm v
  | .ldaZp0 zp => .zp0 zp
  | .ldaZpx zp => .zpx zp
  | .ldaAbs addr => .abs addr
  | .ldaAbx addr => .abx addr
  | .ldaAby addr => .aby addr
  | .ldaIzx zp => .izx zp
  | .ldaIzy zp => .izy zp
  | .ldxImm v => .imm v
  | .ldxZp0 zp => .zp0 zp
  | .ldxZpy zp => .zpy zp
  | .ldxAbs addr => .abs addr
  | .ldxAby addr => .aby addr
  | .ldyImm v => .imm v
  | .ldyZp0 zp => .zp0 zp
  | .ldyZpx zp => .zpx zp
  | .ldyAbs addr => .abs addr
  | .ldyAbx addr => .abx addr
  | .staZp0 zp => .zp0 zp
  | .staZpx zp => .zpx zp
  | .staAbs addr => .abs addr
  | .staAbx addr => .abx addr
  | .staAby addr => .aby addr
  | .staIzx zp => .izx zp
  | .staIzy zp => .izy zp
  | .stxZp0 zp => .zp0 zp
  | .stxZpy zp => .zpy zp
  | .stxAbs addr => .abs addr
  | .styZp0 zp => .zp0 zp
  | .styZpx zp => .zpx zp
  | .styAbs addr => .abs addr
  | .tax => .imp
  | .tay => .imp
  | .txa => .imp
  | .tya => .imp
  | .tsx => .imp
  | .txs => .imp
  | .andImm v => .imm v
  | .andZp0 zp => .zp0 zp
  | .andZpx zp => .zpx zp
  | .andAbs addr => .abs addr
  | .andAbx addr => .abx addr
  | .andAby addr => .aby addr
  | .andIzx zp => .izx zp
  | .andIzy zp => .izy zp
  | .oraImm v => .imm v
  | .oraZp0 zp => .zp0 zp
  | .oraZpx zp => .zpx zp
  | .oraAbs addr => .abs addr
  | .oraAbx addr => .abx addr
  | .oraAby addr => .aby addr
  | .oraIzx zp => .izx zp
  | .oraIzy zp => .izy zp
  | .eorImm v => .imm v
  | .eorZp0 zp => .zp0 zp
  | .eorZpx zp => .zpx zp
  | .eorAbs addr => .abs addr
  | .eorAbx addr => .abx addr
  | .eorAby addr => .aby addr
  | .eorIzx zp => .izx zp
  | .eorIzy zp => .izy zp
  | .bitZp0 zp => .zp0 zp
  | .bitAbs addr => .abs addr
  | .incZp0 zp => .zp0 zp
  | .incZpx zp => .zpx zp
  | .incAbs addr => .abs addr
  | .incAbx addr => .abx addr
  | .decZp0 zp => .zp0 zp
  | .decZpx zp => .zpx zp
  | .decAbs addr => .abs addr
  | .decAbx addr => .abx addr
  | .inx => .imp
  | .iny => .imp
  | .dex => .imp
  | .dey => .imp
  | .clc => .imp
  | .cld => .imp
  | .cli => .imp
  | .clv => .imp
  | .sec => .imp
  | .sed => .imp
  | .sei => .imp
  | .nop => .imp
  | .unimplemented _ => .imp

/-- The length of an instruction follows from its mode (R90, R91). -/
def Instr.size (i : Instr) : Nat := i.operand.mode.size

/-- What the opcode byte fixes: the format (R90) and the instruction, given the operand bytes of that format. -/
inductive Entry where
  | f1 (i : Instr)
  | f2 (k : Byte → Instr)
  | f3 (k : Word → Instr)

/-- The fatal entry of an illegal byte (R107). -/
def fatal (opcode : Byte) : Entry := .f1 (.unimplemented opcode)

/-- Row 0 of the opcode map (R106): opcodes 0x00 to 0x0F. -/
def mapRow0 : List Entry :=
  [.f1 .brk, .f2 .oraIzx, fatal 0x02, fatal 0x03,
   fatal 0x04, .f2 .oraZp0, .f2 .aslZp0, fatal 0x07,
   .f1 .php, .f2 .oraImm, .f1 .aslAcc, fatal 0x0B,
   fatal 0x0C, .f3 .oraAbs, .f3 .aslAbs, fatal 0x0F]

/-- Row 1 of the opcode map (R106): opcodes 0x10 to 0x1F. -/
def mapRow1 : List Entry :=
  [.f2 .bpl, .f2 .oraIzy, fatal 0x12, fatal 0x13,
   fatal 0x14, .f2 .oraZpx, .f2 .aslZpx, fatal 0x17,
   .f1 .clc, .f3 .oraAby, fatal 0x1A, fatal 0x1B,
   fatal 0x1C, .f3 .oraAbx, .f3 .aslAbx, fatal 0x1F]

/-- Row 2 of the opcode map (R106): opcodes 0x20 to 0x2F. -/
def mapRow2 : List Entry :=
  [.f3 .jsr, .f2 .andIzx, fatal 0x22, fatal 0x23,
   .f2 .bitZp0, .f2 .andZp0, .f2 .rolZp0, fatal 0x27,
   .f1 .plp, .f2 .andImm, .f1 .rolAcc, fatal 0x2B,
   .f3 .bitAbs, .f3 .andAbs, .f3 .rolAbs, fatal 0x2F]

/-- Row 3 of the opcode map (R106): opcodes 0x30 to 0x3F. -/
def mapRow3 : List Entry :=
  [.f2 .bmi, .f2 .andIzy, fatal 0x32, fatal 0x33,
   fatal 0x34, .f2 .andZpx, .f2 .rolZpx, fatal 0x37,
   .f1 .sec, .f3 .andAby, fatal 0x3A, fatal 0x3B,
   fatal 0x3C, .f3 .andAbx, .f3 .rolAbx, fatal 0x3F]

/-- Row 4 of the opcode map (R106): opcodes 0x40 to 0x4F. -/
def mapRow4 : List Entry :=
  [.f1 .rti, .f2 .eorIzx, fatal 0x42, fatal 0x43,
   fatal 0x44, .f2 .eorZp0, .f2 .lsrZp0, fatal 0x47,
   .f1 .pha, .f2 .eorImm, .f1 .lsrAcc, fatal 0x4B,
   .f3 .jmpAbs, .f3 .eorAbs, .f3 .lsrAbs, fatal 0x4F]

/-- Row 5 of the opcode map (R106): opcodes 0x50 to 0x5F. -/
def mapRow5 : List Entry :=
  [.f2 .bvc, .f2 .eorIzy, fatal 0x52, fatal 0x53,
   fatal 0x54, .f2 .eorZpx, .f2 .lsrZpx, fatal 0x57,
   .f1 .cli, .f3 .eorAby, fatal 0x5A, fatal 0x5B,
   fatal 0x5C, .f3 .eorAbx, .f3 .lsrAbx, fatal 0x5F]

/-- Row 6 of the opcode map (R106): opcodes 0x60 to 0x6F. -/
def mapRow6 : List Entry :=
  [.f1 .rts, .f2 .adcIzx, fatal 0x62, fatal 0x63,
   fatal 0x64, .f2 .adcZp0, .f2 .rorZp0, fatal 0x67,
   .f1 .pla, .f2 .adcImm, .f1 .rorAcc, fatal 0x6B,
   .f3 .jmpInd, .f3 .adcAbs, .f3 .rorAbs, fatal 0x6F]

/-- Row 7 of the opcode map (R106): opcodes 0x70 to 0x7F. -/
def mapRow7 : List Entry :=
  [.f2 .bvs, .f2 .adcIzy, fatal 0x72, fatal 0x73,
   fatal 0x74, .f2 .adcZpx, .f2 .rorZpx, fatal 0x77,
   .f1 .sei, .f3 .adcAby, fatal 0x7A, fatal 0x7B,
   fatal 0x7C, .f3 .adcAbx, .f3 .rorAbx, fatal 0x7F]

/-- Row 8 of the opcode map (R106): opcodes 0x80 to 0x8F. -/
def mapRow8 : List Entry :=
  [fatal 0x80, .f2 .staIzx, fatal 0x82, fatal 0x83,
   .f2 .styZp0, .f2 .staZp0, .f2 .stxZp0, fatal 0x87,
   .f1 .dey, fatal 0x89, .f1 .txa, fatal 0x8B,
   .f3 .styAbs, .f3 .staAbs, .f3 .stxAbs, fatal 0x8F]

/-- Row 9 of the opcode map (R106): opcodes 0x90 to 0x9F. -/
def mapRow9 : List Entry :=
  [.f2 .bcc, .f2 .staIzy, fatal 0x92, fatal 0x93,
   .f2 .styZpx, .f2 .staZpx, .f2 .stxZpy, fatal 0x97,
   .f1 .tya, .f3 .staAby, .f1 .txs, fatal 0x9B,
   fatal 0x9C, .f3 .staAbx, fatal 0x9E, fatal 0x9F]

/-- Row A of the opcode map (R106): opcodes 0xA0 to 0xAF. -/
def mapRowA : List Entry :=
  [.f2 .ldyImm, .f2 .ldaIzx, .f2 .ldxImm, fatal 0xA3,
   .f2 .ldyZp0, .f2 .ldaZp0, .f2 .ldxZp0, fatal 0xA7,
   .f1 .tay, .f2 .ldaImm, .f1 .tax, fatal 0xAB,
   .f3 .ldyAbs, .f3 .ldaAbs, .f3 .ldxAbs, fatal 0xAF]

/-- Row B of the opcode map (R106): opcodes 0xB0 to 0xBF. -/
def mapRowB : List Entry :=
  [.f2 .bcs, .f2 .ldaIzy, fatal 0xB2, fatal 0xB3,
   .f2 .ldyZpx, .f2 .ldaZpx, .f2 .ldxZpy, fatal 0xB7,
   .f1 .clv, .f3 .ldaAby, .f1 .tsx, fatal 0xBB,
   .f3 .ldyAbx, .f3 .ldaAbx, .f3 .ldxAby, fatal 0xBF]

/-- Row C of the opcode map (R106): opcodes 0xC0 to 0xCF. -/
def mapRowC : List Entry :=
  [.f2 .cpyImm, .f2 .cmpIzx, fatal 0xC2, fatal 0xC3,
   .f2 .cpyZp0, .f2 .cmpZp0, .f2 .decZp0, fatal 0xC7,
   .f1 .iny, .f2 .cmpImm, .f1 .dex, fatal 0xCB,
   .f3 .cpyAbs, .f3 .cmpAbs, .f3 .decAbs, fatal 0xCF]

/-- Row D of the opcode map (R106): opcodes 0xD0 to 0xDF. -/
def mapRowD : List Entry :=
  [.f2 .bne, .f2 .cmpIzy, fatal 0xD2, fatal 0xD3,
   fatal 0xD4, .f2 .cmpZpx, .f2 .decZpx, fatal 0xD7,
   .f1 .cld, .f3 .cmpAby, fatal 0xDA, fatal 0xDB,
   fatal 0xDC, .f3 .cmpAbx, .f3 .decAbx, fatal 0xDF]

/-- Row E of the opcode map (R106): opcodes 0xE0 to 0xEF. -/
def mapRowE : List Entry :=
  [.f2 .cpxImm, .f2 .sbcIzx, fatal 0xE2, fatal 0xE3,
   .f2 .cpxZp0, .f2 .sbcZp0, .f2 .incZp0, fatal 0xE7,
   .f1 .inx, .f2 .sbcImm, .f1 .nop, fatal 0xEB,
   .f3 .cpxAbs, .f3 .sbcAbs, .f3 .incAbs, fatal 0xEF]

/-- Row F of the opcode map (R106): opcodes 0xF0 to 0xFF. -/
def mapRowF : List Entry :=
  [.f2 .beq, .f2 .sbcIzy, fatal 0xF2, fatal 0xF3,
   fatal 0xF4, .f2 .sbcZpx, .f2 .incZpx, fatal 0xF7,
   .f1 .sed, .f3 .sbcAby, fatal 0xFA, fatal 0xFB,
   fatal 0xFC, .f3 .sbcAbx, .f3 .incAbx, fatal 0xFF]

/-- The dispatch table's entry for an opcode byte (R106, R131): row by the high nibble, column by the low nibble. -/
def opcodeMap (op : Byte) : Entry :=
  (([mapRow0, mapRow1, mapRow2, mapRow3] ++ [mapRow4, mapRow5, mapRow6, mapRow7] ++
    [mapRow8, mapRow9, mapRowA, mapRowB] ++ [mapRowC, mapRowD, mapRowE, mapRowF]).getD (op.toNat / 16) []).getD
    (op.toNat % 16) (fatal op)

/-- Why a list of bytes holds no instruction at its head. Only its length can be wrong: every opcode byte has an entry (R106). -/
inductive DecodeError where
  | noBytes                      -- the list is empty
  | truncated (opcode : Byte)    -- fewer operand bytes than the opcode's format has
  deriving DecidableEq, Repr

/-- The decoder: the instruction at the head of the bytes, in increasing address order, and the bytes after it (R90, R92).
An illegal byte decodes to the fatal entry of that byte (R107). -/
def decode : List Byte → Except DecodeError (Instr × List Byte)
  | [] => .error .noBytes
  | op :: rest =>
    match opcodeMap op, rest with
    | .f1 i, rest => .ok (i, rest)
    | .f2 k, b :: rest => .ok (k b, rest)
    | .f3 k, l :: h :: rest => .ok (k (w16 l h), rest)
    | _, _ => .error (.truncated op)

/-- The encoder: an instruction's bytes in increasing address order, from the Encoding lines of the instruction rules (41 to
49) and the formats of R90. -/
def encode : Instr → List Byte
  | .adcImm v => [0x69, v]
  | .adcZp0 zp => [0x65, zp]
  | .adcZpx zp => [0x75, zp]
  | .adcAbs addr => [0x6D, lo addr, hi addr]
  | .adcAbx addr => [0x7D, lo addr, hi addr]
  | .adcAby addr => [0x79, lo addr, hi addr]
  | .adcIzx zp => [0x61, zp]
  | .adcIzy zp => [0x71, zp]
  | .sbcImm v => [0xE9, v]
  | .sbcZp0 zp => [0xE5, zp]
  | .sbcZpx zp => [0xF5, zp]
  | .sbcAbs addr => [0xED, lo addr, hi addr]
  | .sbcAbx addr => [0xFD, lo addr, hi addr]
  | .sbcAby addr => [0xF9, lo addr, hi addr]
  | .sbcIzx zp => [0xE1, zp]
  | .sbcIzy zp => [0xF1, zp]
  | .cmpImm v => [0xC9, v]
  | .cmpZp0 zp => [0xC5, zp]
  | .cmpZpx zp => [0xD5, zp]
  | .cmpAbs addr => [0xCD, lo addr, hi addr]
  | .cmpAbx addr => [0xDD, lo addr, hi addr]
  | .cmpAby addr => [0xD9, lo addr, hi addr]
  | .cmpIzx zp => [0xC1, zp]
  | .cmpIzy zp => [0xD1, zp]
  | .cpxImm v => [0xE0, v]
  | .cpxZp0 zp => [0xE4, zp]
  | .cpxAbs addr => [0xEC, lo addr, hi addr]
  | .cpyImm v => [0xC0, v]
  | .cpyZp0 zp => [0xC4, zp]
  | .cpyAbs addr => [0xCC, lo addr, hi addr]
  | .aslAcc => [0x0A]
  | .aslZp0 zp => [0x06, zp]
  | .aslZpx zp => [0x16, zp]
  | .aslAbs addr => [0x0E, lo addr, hi addr]
  | .aslAbx addr => [0x1E, lo addr, hi addr]
  | .lsrAcc => [0x4A]
  | .lsrZp0 zp => [0x46, zp]
  | .lsrZpx zp => [0x56, zp]
  | .lsrAbs addr => [0x4E, lo addr, hi addr]
  | .lsrAbx addr => [0x5E, lo addr, hi addr]
  | .rolAcc => [0x2A]
  | .rolZp0 zp => [0x26, zp]
  | .rolZpx zp => [0x36, zp]
  | .rolAbs addr => [0x2E, lo addr, hi addr]
  | .rolAbx addr => [0x3E, lo addr, hi addr]
  | .rorAcc => [0x6A]
  | .rorZp0 zp => [0x66, zp]
  | .rorZpx zp => [0x76, zp]
  | .rorAbs addr => [0x6E, lo addr, hi addr]
  | .rorAbx addr => [0x7E, lo addr, hi addr]
  | .bcc disp => [0x90, disp]
  | .bcs disp => [0xB0, disp]
  | .beq disp => [0xF0, disp]
  | .bmi disp => [0x30, disp]
  | .bne disp => [0xD0, disp]
  | .bpl disp => [0x10, disp]
  | .bvc disp => [0x50, disp]
  | .bvs disp => [0x70, disp]
  | .jmpAbs addr => [0x4C, lo addr, hi addr]
  | .jmpInd addr => [0x6C, lo addr, hi addr]
  | .jsr addr => [0x20, lo addr, hi addr]
  | .rts => [0x60]
  | .brk => [0x00]
  | .rti => [0x40]
  | .pha => [0x48]
  | .php => [0x08]
  | .pla => [0x68]
  | .plp => [0x28]
  | .ldaImm v => [0xA9, v]
  | .ldaZp0 zp => [0xA5, zp]
  | .ldaZpx zp => [0xB5, zp]
  | .ldaAbs addr => [0xAD, lo addr, hi addr]
  | .ldaAbx addr => [0xBD, lo addr, hi addr]
  | .ldaAby addr => [0xB9, lo addr, hi addr]
  | .ldaIzx zp => [0xA1, zp]
  | .ldaIzy zp => [0xB1, zp]
  | .ldxImm v => [0xA2, v]
  | .ldxZp0 zp => [0xA6, zp]
  | .ldxZpy zp => [0xB6, zp]
  | .ldxAbs addr => [0xAE, lo addr, hi addr]
  | .ldxAby addr => [0xBE, lo addr, hi addr]
  | .ldyImm v => [0xA0, v]
  | .ldyZp0 zp => [0xA4, zp]
  | .ldyZpx zp => [0xB4, zp]
  | .ldyAbs addr => [0xAC, lo addr, hi addr]
  | .ldyAbx addr => [0xBC, lo addr, hi addr]
  | .staZp0 zp => [0x85, zp]
  | .staZpx zp => [0x95, zp]
  | .staAbs addr => [0x8D, lo addr, hi addr]
  | .staAbx addr => [0x9D, lo addr, hi addr]
  | .staAby addr => [0x99, lo addr, hi addr]
  | .staIzx zp => [0x81, zp]
  | .staIzy zp => [0x91, zp]
  | .stxZp0 zp => [0x86, zp]
  | .stxZpy zp => [0x96, zp]
  | .stxAbs addr => [0x8E, lo addr, hi addr]
  | .styZp0 zp => [0x84, zp]
  | .styZpx zp => [0x94, zp]
  | .styAbs addr => [0x8C, lo addr, hi addr]
  | .tax => [0xAA]
  | .tay => [0xA8]
  | .txa => [0x8A]
  | .tya => [0x98]
  | .tsx => [0xBA]
  | .txs => [0x9A]
  | .andImm v => [0x29, v]
  | .andZp0 zp => [0x25, zp]
  | .andZpx zp => [0x35, zp]
  | .andAbs addr => [0x2D, lo addr, hi addr]
  | .andAbx addr => [0x3D, lo addr, hi addr]
  | .andAby addr => [0x39, lo addr, hi addr]
  | .andIzx zp => [0x21, zp]
  | .andIzy zp => [0x31, zp]
  | .oraImm v => [0x09, v]
  | .oraZp0 zp => [0x05, zp]
  | .oraZpx zp => [0x15, zp]
  | .oraAbs addr => [0x0D, lo addr, hi addr]
  | .oraAbx addr => [0x1D, lo addr, hi addr]
  | .oraAby addr => [0x19, lo addr, hi addr]
  | .oraIzx zp => [0x01, zp]
  | .oraIzy zp => [0x11, zp]
  | .eorImm v => [0x49, v]
  | .eorZp0 zp => [0x45, zp]
  | .eorZpx zp => [0x55, zp]
  | .eorAbs addr => [0x4D, lo addr, hi addr]
  | .eorAbx addr => [0x5D, lo addr, hi addr]
  | .eorAby addr => [0x59, lo addr, hi addr]
  | .eorIzx zp => [0x41, zp]
  | .eorIzy zp => [0x51, zp]
  | .bitZp0 zp => [0x24, zp]
  | .bitAbs addr => [0x2C, lo addr, hi addr]
  | .incZp0 zp => [0xE6, zp]
  | .incZpx zp => [0xF6, zp]
  | .incAbs addr => [0xEE, lo addr, hi addr]
  | .incAbx addr => [0xFE, lo addr, hi addr]
  | .decZp0 zp => [0xC6, zp]
  | .decZpx zp => [0xD6, zp]
  | .decAbs addr => [0xCE, lo addr, hi addr]
  | .decAbx addr => [0xDE, lo addr, hi addr]
  | .inx => [0xE8]
  | .iny => [0xC8]
  | .dex => [0xCA]
  | .dey => [0x88]
  | .clc => [0x18]
  | .cld => [0xD8]
  | .cli => [0x58]
  | .clv => [0xB8]
  | .sec => [0x38]
  | .sed => [0xF8]
  | .sei => [0x78]
  | .nop => [0xEA]
  | .unimplemented op => [op]

/-- The opcode byte of an instruction: the first byte of its encoding (R90). -/
def Instr.opcode (i : Instr) : Byte := (encode i).headD 0

/-- The bytes of a number whose bit 0 is the least significant bit of the first byte. -/
def tableBytes (nbits w : Nat) : List Byte :=
  let v := w % 2 ^ nbits
  [BitVec.ofNat 8 v, BitVec.ofNat 8 (v / 256), BitVec.ofNat 8 (v / 65536)]

/-- The instruction the decoder reads from an instruction whose bits are `w`, numbered as spec/opcode_table.json numbers
them; bits at and above `nbits` are 0. -/
def decodeTableWord (nbits w : Nat) : Option Instr :=
  match decode (tableBytes nbits w) with
  | .ok (i, _) => some i
  | .error _ => none

end Sys2Proof
end

