-- ==== Sys2Proof/Config.lean ====
section
/-! DEFINITION. The parameters 00_scope.md R8 leaves OPEN and the values 93_implementation_defined.md leaves free, as
constants without a body: nothing can be proved about their values (log 4, log 10). The other parameters of R8 are not here:
`PRG` and `RAM_INIT` are contents of State's memory, and `BASE_CYCLES` is the table of Machine/Timing.lean. -/

namespace Sys2Proof

/-- `RESET_CYCLES`: the value `reset()` writes into remaining_cycles, an OPEN natural number (R8, decision D17). -/
opaque Config.resetCycles : Nat

/-- `IRQ_CYCLES`: the value a taken `irq()` writes into remaining_cycles, an OPEN natural number (R8, decision D16). -/
opaque Config.irqCycles : Nat

/-- `NMI_CYCLES`: the value `nmi()` writes into remaining_cycles, an OPEN natural number (R8, decision D16). -/
opaque Config.nmiCycles : Nat

/-- What the CPU's 8-bit and 16-bit registers hold between construction and the first reset, by number: "any value" (U4,
decision D22). -/
opaque Config.atConstruction : Nat → Word

/-- What remaining_cycles holds between construction and the first reset: any natural number (10_state.md R28, U4). -/
opaque Config.cyclesAtConstruction : Nat

end Sys2Proof
end

