-- ==== Sys2Proof/Machine/State.lean ====
section
/-! DEFINITION. The state of the block as plain data (10_state.md, 20_memory.md R58), the calls a host can make on it
(60_exceptions.md R278), the reasons a step stops (40_engine.md R140), and the state right after reset (R33, R300). -/

namespace Sys2Proof.Machine

/-- The live status register: the six stored flags (10_state.md R25). Bit 5 and B are not stored. -/
structure Flags where
  n : Bool   -- negative
  v : Bool   -- overflow
  d : Bool   -- decimal mode, without effect on arithmetic (R165)
  i : Bool   -- interrupt disable
  z : Bool   -- zero
  c : Bool   -- carry
  deriving DecidableEq, Repr

/-- What the NROM mapper stores (20_memory.md R58): whether PRG-ROM is 16 KB or 32 KB. No other size is built (R60). -/
inductive PrgSize where
  | kb16
  | kb32
  deriving DecidableEq, Repr

/-- The block's memory (10_state.md R32): the internal RAM of 2048 bytes, keys 0 to 0x7FF, and the cartridge's PRG-ROM, keys
the PRG offsets. Each is a list in the canonical form of `Memory.wf`: keys strictly rising, and no byte listed that equals
what an unlisted one reads as. -/
structure Memory where
  ram : List Host.Cell
  prgSize : PrgSize
  prg : List Host.Cell
  deriving DecidableEq, Repr

/-- What the halted state records (10_state.md R29): the opcode byte and the address it was fetched from. -/
structure HaltRecord where
  opcode : Byte
  address : Word
  deriving DecidableEq, Repr

/-- The eight flag names of the status register (R25, R34); `u` is the unused bit 5. -/
inductive FlagName where
  | n | v | u | b | d | i | z | c
  deriving DecidableEq, Repr

/-- The register and flag getters (10_state.md R34). -/
inductive Getter where
  | a | x | y | sp | pc | p
  | flag (f : FlagName)
  deriving DecidableEq, Repr

/-- The calls the host can make on the constructed block (60_exceptions.md R278). -/
inductive HostCall where
  | reset
  | clock
  | irq
  | nmi
  | getter (g : Getter)
  | busRead (addr : Word)
  | busWrite (addr : Word) (v : Byte)
  | disassemble (addr : Word)
  deriving DecidableEq, Repr

/-- The state of the block. `hostCalls` is the model's own field (log 5): the calls the host is still going to make before
it goes on calling `clock()`. It is the host's script, not a latch of the CPU, which has no pending state (R266). -/
@[ext]
structure State where
  a : Byte                      -- accumulator (R20)
  x : Byte                      -- X index (R20)
  y : Byte                      -- Y index (R20)
  sp : Byte                     -- stack pointer, an offset into page 0x01 (R22)
  pc : Word                     -- program counter (R23)
  p : Flags                     -- status register (R25)
  operandAddress : Word         -- operand_address (R28)
  relativeOffset : Word         -- relative_offset (R28)
  remainingCycles : Nat         -- remaining_cycles (R28)
  halted : Option HaltRecord    -- halted (R29)
  resetDone : Bool              -- reset_done (R300)
  mem : Memory                  -- RAM and PRG-ROM (R32)
  hostCalls : List HostCall     -- the host's script (R278; log 5)
  deriving DecidableEq, Repr

/-- The faults of the block: exactly one (R13, R261). -/
inductive Fault where
  /-- Raised by the fetch of one of the 105 opcode bytes of R107: UnimplementedOpcode, with the record of decision D35. The
  block is then halted for good (R138). Safe: nothing can be proved of a run beyond it. -/
  | unimplementedOpcode (opcode : Byte) (address : Word)
  deriving DecidableEq, Repr

/-- The calls that have no step (40_engine.md R140), and an instruction without a meaning. -/
inductive Refusal where
  /-- An instruction without a meaning in `exec`; no arm answers it. Safe. -/
  | notModelled (mnemonic : String)
  /-- Any call when halted: the process has terminated (R138, R140, log 7). Safe. -/
  | haltedBlock
  /-- `clock()`, `irq()`, `nmi()` or a getter before the first `reset()` (R140, decision D22). Safe. -/
  | beforeReset
  deriving DecidableEq, Repr

/-- The memory of a block with a cartridge nobody has filled (log 1): 16 KB of PRG-ROM and the RAM of decision D1, nothing
listed in either. -/
def Memory.blank : Memory := { ram := [], prgSize := .kb16, prg := [] }

/-- The status register after reset: P_read() = 0x24 (R33). -/
def Flags.reset : Flags := { n := false, v := false, d := false, i := true, z := false, c := false }

/-- The state right after construction with a blank cartridge and `reset()` (R33, R300). PC is the reset vector's contents,
which the blank cartridge gives as 0x0000. -/
def State.reset : State where
  a := 0x00
  x := 0x00
  y := 0x00
  sp := 0xFF
  pc := 0x0000
  p := Flags.reset
  operandAddress := 0x0000
  relativeOffset := 0x0000
  remainingCycles := Config.resetCycles
  halted := none
  resetDone := true
  mem := Memory.blank
  hostCalls := []

end Sys2Proof.Machine
end

