-- ==== Sys2Proof/Machine/Flags.lean ====
section
/-! DEFINITION. The status register and every flag computation: P_read(), GetFlag, SetFlag, setNZ (10_state.md R25 to R27),
the status bytes pushed and pulled (R25, 45_stack.md R202, R204, 60_exceptions.md R262), and the carry, overflow and compare
flags of 41_arithmetic.md. -/

namespace Sys2Proof.Machine

/-- `P_read() = N<<7 | V<<6 | 1<<5 | 0<<4 | D<<3 | I<<2 | Z<<1 | C` (R25). -/
def pRead (p : Flags) : Byte :=
  (BitVec.ofBool p.n).setWidth 8 <<< 7 ||| (BitVec.ofBool p.v).setWidth 8 <<< 6 ||| 0x20 |||
    (BitVec.ofBool p.d).setWidth 8 <<< 3 ||| (BitVec.ofBool p.i).setWidth 8 <<< 2 |||
    (BitVec.ofBool p.z).setWidth 8 <<< 1 ||| (BitVec.ofBool p.c).setWidth 8

/-- A flag's bit in the status register (R25). -/
def FlagName.bit : FlagName → Nat
  | .n => 7
  | .v => 6
  | .u => 5
  | .b => 4
  | .d => 3
  | .i => 2
  | .z => 1
  | .c => 0

/-- `GetFlag(f)`: the one bit of P_read() (R27). -/
def getFlag (f : FlagName) (p : Flags) : Bool := (pRead p).getLsbD f.bit

/-- `SetFlag(f, v)`: one stored flag; B and bit 5 are not stored (R27). -/
def setFlag (f : FlagName) (v : Bool) (p : Flags) : Flags :=
  match f with
  | .n => { p with n := v }
  | .v => { p with v := v }
  | .u => p
  | .b => p
  | .d => { p with d := v }
  | .i => { p with i := v }
  | .z => { p with z := v }
  | .c => { p with c := v }

/-- The flags a pulled status byte loads; its bits 5 and 4 are discarded (R25, R204). -/
def Flags.ofByte (b : Byte) : Flags where
  n := b.getLsbD 7
  v := b.getLsbD 6
  d := b.getLsbD 3
  i := b.getLsbD 2
  z := b.getLsbD 1
  c := b.getLsbD 0

/-- The byte PHP pushes: bits 5 and 4 forced to 1 (R202). -/
def phpStatus (p : Flags) : Byte := pRead p ||| 0x30

/-- The byte interrupt entry pushes: `P_read() | (b << 4)` (R262). -/
def entryStatus (b : Bool) (p : Flags) : Byte := pRead p ||| (BitVec.ofBool b).setWidth 8 <<< 4

/-- `setNZ(v)` (R26). -/
def setNZ (v : Byte) (p : Flags) : Flags := { p with z := v == 0x00, n := v.getLsbD 7 }

/-! ### Addition with carry (41_arithmetic.md R160, R161) -/

/-- The widened sum of R160: `zext_16(A) + zext_16(M) + C`, 0 to 511. -/
def wideSum (a m : Byte) (c : Bool) : Word := zext16 a + zext16 m + (BitVec.ofBool c).setWidth 16

/-- `trunc8(sum)` (R160). -/
def sumByte (a m : Byte) (c : Bool) : Byte := (wideSum a m c).setWidth 8

/-- The carry out: `sum > 0xFF` (R160). -/
def sumCarry (a m : Byte) (c : Bool) : Bool := decide (0x00FF < wideSum a m c)

/-- The signed overflow: `((~(old_A ^ operand)) & (old_A ^ new_A)) & 0x80 != 0` (R160). -/
def sumOverflow (a m r : Byte) : Bool := (~~~(a ^^^ m) &&& (a ^^^ r) &&& 0x80) != 0x00

/-- The flags of an addition of A, M and C with result `r` (R160). -/
def addFlags (a m : Byte) (p : Flags) : Flags :=
  let r := sumByte a m p.c
  setNZ r { p with c := sumCarry a m p.c, v := sumOverflow a m r }

/-- The flags of a compare of a register with M (R162): C from the unsigned order, N and Z from the 8-bit difference. -/
def compareFlags (r m : Byte) (p : Flags) : Flags :=
  setNZ (r - m) { p with c := decide (m ≤ r) }

/-- The flags of BIT (R233). -/
def bitFlags (a m : Byte) (p : Flags) : Flags :=
  { p with z := (a &&& m) == 0x00, n := m.getLsbD 7, v := m.getLsbD 6 }

end Sys2Proof.Machine
end

