-- ==== Sys2Proof/Machine/Ops.lean ====
section
/-! DEFINITION. The named operations over memory and registers: cells, the Bus and its decoder, the Cartridge and the NROM
mapper (20_memory.md), the stack primitives (10_state.md R30, R31), interrupt entry and return (60_exceptions.md R262,
44_jump_subroutine.md R194), reset (70_reset_and_hazards.md R300), the halt (40_engine.md R138) and the getters (R34). -/

namespace Sys2Proof.Machine

/-! ### Cells -/

/-- What an unlisted byte reads as: 0x00, for RAM the value of `RAM_INIT` (decision D1, log 2), for PRG-ROM the model's
choice (log 3). -/
def unlistedByte : Byte := 0x00

/-- The byte a list of cells holds at a key. -/
def cellRead : List Host.Cell → Nat → Byte
  | [], _ => unlistedByte
  | (k, v) :: rest, key => if k = key then v else cellRead rest key

/-- The cells without those at a key. -/
def cellErase : List Host.Cell → Nat → List Host.Cell
  | [], _ => []
  | (k, v) :: rest, key => if k = key then cellErase rest key else (k, v) :: cellErase rest key

/-- The cells with one more, before the first that has a greater key. -/
def cellInsert : List Host.Cell → Nat → Byte → List Host.Cell
  | [], key, v => [(key, v)]
  | (k, w) :: rest, key, v => if key < k then (key, v) :: (k, w) :: rest else (k, w) :: cellInsert rest key v

/-- Write a byte, keeping the canonical form: a byte that reads as an unlisted one is not listed. -/
def cellWrite (cells : List Host.Cell) (key : Nat) (v : Byte) : List Host.Cell :=
  if v = unlistedByte then cellErase cells key else cellInsert (cellErase cells key) key v

/-- The canonical form from a key on: keys strictly rising from `lo`, all below `hi`, no byte equal to an unlisted one. -/
def cellsWf (lo hi : Nat) : List Host.Cell → Bool
  | [] => true
  | (k, v) :: rest => decide (lo ≤ k) && decide (k < hi) && decide (v ≠ unlistedByte) && cellsWf (k + 1) hi rest

/-- "Internal RAM is exactly 2048 bytes" (R53). -/
def ramSize : Nat := 2048

/-- The length of PRG-ROM (R58, R60). -/
def PrgSize.length : PrgSize → Nat
  | .kb16 => 16384
  | .kb32 => 32768

/-- The canonical form of the block's memory. -/
def Memory.wf (m : Memory) : Bool := cellsWf 0 ramSize m.ram && cellsWf 0 m.prgSize.length m.prg

/-! ### Mapper, Cartridge and Bus -/

/-- The NROM mapper's address translation (R58): the PRG offset of a CPU address, none below 0x8000. -/
def mapCpuAddress (size : PrgSize) (addr : Word) : Option Nat :=
  if addr < 0x8000 then none
  else
    match size with
    | .kb16 => some ((addr - 0x8000) &&& 0x3FFF).toNat
    | .kb32 => some (addr - 0x8000).toNat

/-- `Cartridge.cpuRead` (R57): 0x00 where the mapper maps nothing (decision D3). -/
def cartRead (m : Memory) (addr : Word) : Byte :=
  match mapCpuAddress m.prgSize addr with
  | some off => cellRead m.prg off
  | none => 0x00

/-- `Cartridge.cpuWrite` (R57, R59): NROM ignores every write. -/
def cartWrite (m : Memory) (_addr : Word) (_v : Byte) : Memory := m

/-- The window 0x0000 to 0x1FFF of the internal RAM (R53). -/
def inRam (addr : Word) : Bool := decide (addr ≤ 0x1FFF)

/-- The RAM cell an address of 0x0000 to 0x1FFF designates: `addr & 0x07FF` (R53). -/
def ramKey (addr : Word) : Nat := (addr &&& 0x07FF).toNat

/-- `Bus.read` (R52). -/
def busRead (m : Memory) (addr : Word) : Byte :=
  if inRam addr then cellRead m.ram (ramKey addr)
  else if addr ≤ 0x3FFF then 0x00
  else if addr ≤ 0x401F then 0x00
  else cartRead m addr

/-- `Bus.write` (R52). -/
def busWrite (m : Memory) (addr : Word) (v : Byte) : Memory :=
  if inRam addr then { m with ram := cellWrite m.ram (ramKey addr) v }
  else if addr ≤ 0x401F then m
  else cartWrite m addr v

/-- `MemRead(addr, 1)` (00_scope.md R12). -/
def memRead (s : State) (addr : Word) : Byte := busRead s.mem addr

/-- `MemWrite(addr, 1, v)` (00_scope.md R12). -/
def memWrite (addr : Word) (v : Byte) (s : State) : State := { s with mem := busWrite s.mem addr v }

/-- `MemRead16(addr)` (00_scope.md R12): low byte first, the address of the high byte modulo 65536. -/
def memRead16 (s : State) (addr : Word) : Word := w16 (memRead s addr) (memRead s (addr + 1))

/-! ### Stack primitives -/

/-- The stack byte SP designates: `0x0100 + SP` (R22). -/
def stackAddress (sp : Byte) : Word := 0x0100 + zext16 sp

/-- `Push(v)` (R30). -/
def push (v : Byte) (s : State) : State :=
  { memWrite (stackAddress s.sp) v s with sp := s.sp - 1 }

/-- The byte `Pull()` returns (R31). -/
def pullByte (s : State) : Byte := memRead s (stackAddress (s.sp + 1))

/-- The state `Pull()` leaves (R31). -/
def pullState (s : State) : State := { s with sp := s.sp + 1 }

/-! ### Interrupt entry and return -/

/-- The vectors (20_memory.md R65). -/
def nmiVector : Word := 0xFFFA
def resetVector : Word := 0xFFFC
def irqVector : Word := 0xFFFE

/-- `InterruptEntry(vector, b)` (60_exceptions.md R262): push PC high, PC low and the status with bit 4 = b, set I, load PC
from the vector. Used by BRK, `irq()` and `nmi()`. -/
def interruptEntry (vector : Word) (b : Bool) (s : State) : State :=
  let s1 := push (hi s.pc) s
  let s2 := push (lo s.pc) s1
  let s3 := push (entryStatus b s.p) s2
  { s3 with p := { s3.p with i := true }, pc := memRead16 s3 vector }

/-- The return from an interrupt (44_jump_subroutine.md R194): pull the status, then PC low, then PC high. -/
def interruptReturn (s : State) : State :=
  let status := pullByte s
  let s1 := pullState s
  let l := pullByte s1
  let s2 := pullState s1
  let h := pullByte s2
  { pullState s2 with p := Flags.ofByte status, pc := w16 l h }

/-! ### Reset, interrupts and the halt -/

/-- `Cpu.reset()` (70_reset_and_hazards.md R300, R301): RAM and PRG-ROM unchanged. -/
def cpuReset (s : State) : State :=
  { s with
    a := 0x00, x := 0x00, y := 0x00, sp := 0xFF, p := Flags.reset
    pc := memRead16 s resetVector
    operandAddress := 0x0000, relativeOffset := 0x0000
    remainingCycles := Config.resetCycles
    resetDone := true }

/-- `Cpu.irq()` (60_exceptions.md R263): no state change at all when I = 1. -/
def cpuIrq (s : State) : State :=
  if s.p.i then s else { interruptEntry irqVector false s with remainingCycles := Config.irqCycles }

/-- `Cpu.nmi()` (60_exceptions.md R264): whatever I holds. -/
def cpuNmi (s : State) : State :=
  { interruptEntry nmiVector false s with remainingCycles := Config.nmiCycles }

/-- The halted state an unimplemented opcode leaves (40_engine.md R138): the fetch's PC increment has happened,
remaining_cycles is not changed, and the record of decision D35 is kept. `s` is the state the fetch began in. -/
def haltState (opcode : Byte) (address : Word) (s : State) : State :=
  { s with pc := s.pc + 1, halted := some { opcode := opcode, address := address } }

/-! ### Getters -/

/-- The number a getter returns (10_state.md R34). -/
def getterValue (g : Getter) (s : State) : Nat :=
  match g with
  | .a => s.a.toNat
  | .x => s.x.toNat
  | .y => s.y.toNat
  | .sp => s.sp.toNat
  | .pc => s.pc.toNat
  | .p => (pRead s.p).toNat
  | .flag f => (getFlag f s.p).toNat

end Sys2Proof.Machine
end

