-- ==== Sys2Proof/Machine/Timing.lean ====
section
/-! DEFINITION. `BASE_CYCLES` (00_scope.md R8): the base cycle count of each opcode, the column "base cycles" of the table of
30_encoding.md R106, laid out as the opcode map: one row a high nibble, one column a low nibble. The illegal bytes of R107
have no base count; 0 stands in their places and nothing reads it. -/

namespace Sys2Proof.Machine

/-- The base cycle counts of opcodes 0x00 to 0x7F. -/
def baseCyclesLow : List (List Nat) :=
  [[7, 6, 0, 0, 0, 3, 5, 0, 3, 2, 2, 0, 0, 4, 6, 0],
   [2, 5, 0, 0, 0, 4, 6, 0, 2, 4, 0, 0, 0, 4, 7, 0],
   [6, 6, 0, 0, 3, 3, 5, 0, 4, 2, 2, 0, 4, 4, 6, 0],
   [2, 5, 0, 0, 0, 4, 6, 0, 2, 4, 0, 0, 0, 4, 7, 0],
   [6, 6, 0, 0, 0, 3, 5, 0, 3, 2, 2, 0, 3, 4, 6, 0],
   [2, 5, 0, 0, 0, 4, 6, 0, 2, 4, 0, 0, 0, 4, 7, 0],
   [6, 6, 0, 0, 0, 3, 5, 0, 4, 2, 2, 0, 5, 4, 6, 0],
   [2, 5, 0, 0, 0, 4, 6, 0, 2, 4, 0, 0, 0, 4, 7, 0]]

/-- The base cycle counts of opcodes 0x80 to 0xFF. -/
def baseCyclesHigh : List (List Nat) :=
  [[0, 6, 0, 0, 3, 3, 3, 0, 2, 0, 2, 0, 4, 4, 4, 0],
   [2, 6, 0, 0, 4, 4, 4, 0, 2, 5, 2, 0, 0, 5, 0, 0],
   [2, 6, 2, 0, 3, 3, 3, 0, 2, 2, 2, 0, 4, 4, 4, 0],
   [2, 5, 0, 0, 4, 4, 4, 0, 2, 4, 2, 0, 4, 4, 4, 0],
   [2, 6, 0, 0, 3, 3, 5, 0, 2, 2, 2, 0, 4, 4, 6, 0],
   [2, 5, 0, 0, 0, 4, 6, 0, 2, 4, 0, 0, 0, 4, 7, 0],
   [2, 6, 0, 0, 3, 3, 5, 0, 2, 2, 2, 0, 4, 4, 6, 0],
   [2, 5, 0, 0, 0, 4, 6, 0, 2, 4, 0, 0, 0, 4, 7, 0]]

/-- `BASE_CYCLES[opcode]` (R8, R106, decision D15). -/
def baseCycles (opcode : Byte) : Nat :=
  ((baseCyclesLow ++ baseCyclesHigh).getD (opcode.toNat / 16) []).getD (opcode.toNat % 16) 0

end Sys2Proof.Machine
end

