-- ==== Sys2Proof/Machine/Operands.lean ====
section
/-! DEFINITION. Every operand form: the addressing-mode resolvers (30_encoding.md R93 to R105), the operand primitives
`Operand()` and `WriteBack(v)` (40_engine.md R135, R136), and the run of one dispatch entry (40_engine.md R130, R132). -/

namespace Sys2Proof.Machine

/-- The 16-bit pointer of IZX and IZY, read from zero page: the high byte's address also wraps within page 0 (R103, R104). -/
def zeroPagePointer (s : State) (t : Byte) : Word := w16 (memRead s (zext16 t)) (memRead s (zext16 (t + 1)))

/-- The pointer read of JMP indirect with the page-wrap defect (R102): where the low byte of the pointer is 0xFF, the high
byte comes from the start of the same page. -/
def indirectTarget (s : State) (ptr : Word) : Word :=
  w16 (memRead s ptr) (if lo ptr = 0xFF then memRead s (w16 0x00 (hi ptr)) else memRead s (ptr + 1))

/-- What a resolver leaves in operand_address (R94 to R105). `s.pc` is the address of the byte after the opcode, as it is
when a resolver starts (R93). IMP, ACC and REL leave operand_address unchanged. -/
def operandAddr (o : Operand) (s : State) : Word :=
  match o with
  | .imp => s.operandAddress
  | .acc => s.operandAddress
  | .imm _ => s.pc
  | .zp0 b => zext16 b
  | .zpx b => zext16 (b + s.x)
  | .zpy b => zext16 (b + s.y)
  | .abs w => w
  | .abx w => w + zext16 s.x
  | .aby w => w + zext16 s.y
  | .ind w => indirectTarget s w
  | .izx b => zeroPagePointer s (b + s.x)
  | .izy b => zeroPagePointer s b + zext16 s.y
  | .rel _ => s.operandAddress

/-- What a resolver leaves in relative_offset: REL stages the displacement (R105). -/
def operandOffset (o : Operand) (s : State) : Word :=
  match o with
  | .rel b => sext16 b
  | .imp | .acc | .imm _ | .zp0 _ | .zpx _ | .zpy _ | .abs _ | .abx _ | .aby _ | .ind _ | .izx _ | .izy _ =>
    s.relativeOffset

/-- Adding the index to the low byte alone overflows past 0xFF (R100). -/
def lowByteOverflows (base : Word) (index : Byte) : Bool := decide (0xFF < (lo base).toNat + index.toNat)

/-- The Boolean a resolver returns, `page_cross_capable` (R93 to R105). -/
def pageCross (o : Operand) (s : State) : Bool :=
  match o with
  | .abx w => lowByteOverflows w s.x
  | .aby w => lowByteOverflows w s.y
  | .izy b => lowByteOverflows (zeroPagePointer s b) s.y
  | .imp | .acc | .imm _ | .zp0 _ | .zpx _ | .zpy _ | .abs _ | .ind _ | .izx _ | .rel _ => false

/-- The state a resolver leaves (R93): PC past the operand bytes, operand_address and relative_offset set. -/
def resolve (o : Operand) (s : State) : State :=
  { s with
    pc := s.pc + BitVec.ofNat 16 (o.mode.size - 1)
    operandAddress := operandAddr o s
    relativeOffset := operandOffset o s }

/-- `Operand()` (R135): A in ACC mode, otherwise the byte at operand_address. For IMM that byte is the operand byte the
decoder read from there (log 8). -/
def operandValue (o : Operand) (s : State) : Byte :=
  match o with
  | .acc => s.a
  | .imm v => v
  | .imp | .zp0 _ | .zpx _ | .zpy _ | .abs _ | .abx _ | .aby _ | .ind _ | .izx _ | .izy _ | .rel _ =>
    memRead s s.operandAddress

/-- `WriteBack(v)` (R136): A in ACC mode, otherwise the byte at operand_address. -/
def writeBack (o : Operand) (v : Byte) (s : State) : State :=
  match o with
  | .acc => { s with a := v }
  | .imp | .imm _ | .zp0 _ | .zpx _ | .zpy _ | .abs _ | .abx _ | .aby _ | .ind _ | .izx _ | .izy _ | .rel _ =>
    memWrite s.operandAddress v s

/-- What an instruction semantic returns (R130): the state, `pen` (R137) and `br` (R180). -/
structure Effect where
  state : State
  pen : Bool
  br : Nat

/-- The effect of a semantic that reports a possible extra cycle, `return (pen = 1, br = 0)`. -/
def penal (s : State) : Effect := { state := s, pen := true, br := 0 }

/-- The effect of a semantic without extra cycles, `return (pen = 0, br = 0)`. -/
def plain (s : State) : Effect := { state := s, pen := false, br := 0 }

/-- The state in which a semantic runs: the opcode fetched and the operand resolved (R130). `s.pc` is the opcode's address. -/
def fetched (o : Operand) (s : State) : State := resolve o { s with pc := s.pc + 1 }

/-- Run one dispatch entry {semantic, mode, base} of the table (R130, R131, R132): increment PC past the opcode, resolve,
run the semantic, set remaining_cycles to the duration T. The final decrement of `clock()` is not here (log 9). -/
def runEntry (opcode : Byte) (o : Operand) (sem : Operand → State → Effect) (s : State) :
    Host.Outcome State Fault Refusal :=
  let cross := pageCross o { s with pc := s.pc + 1 }
  let e := sem o (fetched o s)
  .next { e.state with
          remainingCycles := baseCycles opcode + (if cross && e.pen then 1 else 0) + e.br }

end Sys2Proof.Machine
end

