-- ==== Sys2Proof/Machine/Arithmetic.lean ====
section
/-! DEFINITION. Arithmetic and compare instructions (41_arithmetic.md R160 to R166): ADC, SBC, CMP, CPX, CPY. Each semantic is the pseudocode of
its rule; each `exec` definition is one row of the opcode map (30_encoding.md R106): its opcode, its mode with the operand,
and its semantic, run by `runEntry`. -/

namespace Sys2Proof.Machine

/-- ADC (R160): A <- A + M + C, binary whatever D holds (R165). Penalty-capable. -/
def semAdc (o : Operand) (s : State) : Effect :=
  let m := operandValue o s
  penal { s with a := sumByte s.a m s.p.c, p := addFlags s.a m s.p }

/-- SBC (R161): ADC with the operand bit-inverted. Penalty-capable. -/
def semSbc (o : Operand) (s : State) : Effect :=
  let m := operandValue o s ^^^ 0xFF
  penal { s with a := sumByte s.a m s.p.c, p := addFlags s.a m s.p }

/-- CMP (R162). Penalty-capable. -/
def semCmp (o : Operand) (s : State) : Effect := penal { s with p := compareFlags s.a (operandValue o s) s.p }

/-- CPX (R163). -/
def semCpx (o : Operand) (s : State) : Effect := plain { s with p := compareFlags s.x (operandValue o s) s.p }

/-- CPY (R164). -/
def semCpy (o : Operand) (s : State) : Effect := plain { s with p := compareFlags s.y (operandValue o s) s.p }

/-! #### ADC (R160) -/

/-- ADC IMM, 0x69 (R160). -/
def execAdcImm (v : Byte) (s : State) : Host.Outcome State Fault Refusal := runEntry 0x69 (.imm v) semAdc s

/-- ADC ZP0, 0x65 (R160). -/
def execAdcZp0 (zp : Byte) (s : State) : Host.Outcome State Fault Refusal := runEntry 0x65 (.zp0 zp) semAdc s

/-- ADC ZPX, 0x75 (R160). -/
def execAdcZpx (zp : Byte) (s : State) : Host.Outcome State Fault Refusal := runEntry 0x75 (.zpx zp) semAdc s

/-- ADC ABS, 0x6D (R160). -/
def execAdcAbs (addr : Word) (s : State) : Host.Outcome State Fault Refusal := runEntry 0x6D (.abs addr) semAdc s

/-- ADC ABX, 0x7D (R160). -/
def execAdcAbx (addr : Word) (s : State) : Host.Outcome State Fault Refusal := runEntry 0x7D (.abx addr) semAdc s

/-- ADC ABY, 0x79 (R160). -/
def execAdcAby (addr : Word) (s : State) : Host.Outcome State Fault Refusal := runEntry 0x79 (.aby addr) semAdc s

/-- ADC IZX, 0x61 (R160). -/
def execAdcIzx (zp : Byte) (s : State) : Host.Outcome State Fault Refusal := runEntry 0x61 (.izx zp) semAdc s

/-- ADC IZY, 0x71 (R160). -/
def execAdcIzy (zp : Byte) (s : State) : Host.Outcome State Fault Refusal := runEntry 0x71 (.izy zp) semAdc s

/-! #### SBC (R161) -/

/-- SBC IMM, 0xE9 (R161). -/
def execSbcImm (v : Byte) (s : State) : Host.Outcome State Fault Refusal := runEntry 0xE9 (.imm v) semSbc s

/-- SBC ZP0, 0xE5 (R161). -/
def execSbcZp0 (zp : Byte) (s : State) : Host.Outcome State Fault Refusal := runEntry 0xE5 (.zp0 zp) semSbc s

/-- SBC ZPX, 0xF5 (R161). -/
def execSbcZpx (zp : Byte) (s : State) : Host.Outcome State Fault Refusal := runEntry 0xF5 (.zpx zp) semSbc s

/-- SBC ABS, 0xED (R161). -/
def execSbcAbs (addr : Word) (s : State) : Host.Outcome State Fault Refusal := runEntry 0xED (.abs addr) semSbc s

/-- SBC ABX, 0xFD (R161). -/
def execSbcAbx (addr : Word) (s : State) : Host.Outcome State Fault Refusal := runEntry 0xFD (.abx addr) semSbc s

/-- SBC ABY, 0xF9 (R161). -/
def execSbcAby (addr : Word) (s : State) : Host.Outcome State Fault Refusal := runEntry 0xF9 (.aby addr) semSbc s

/-- SBC IZX, 0xE1 (R161). -/
def execSbcIzx (zp : Byte) (s : State) : Host.Outcome State Fault Refusal := runEntry 0xE1 (.izx zp) semSbc s

/-- SBC IZY, 0xF1 (R161). -/
def execSbcIzy (zp : Byte) (s : State) : Host.Outcome State Fault Refusal := runEntry 0xF1 (.izy zp) semSbc s

/-! #### CMP (R162) -/

/-- CMP IMM, 0xC9 (R162). -/
def execCmpImm (v : Byte) (s : State) : Host.Outcome State Fault Refusal := runEntry 0xC9 (.imm v) semCmp s

/-- CMP ZP0, 0xC5 (R162). -/
def execCmpZp0 (zp : Byte) (s : State) : Host.Outcome State Fault Refusal := runEntry 0xC5 (.zp0 zp) semCmp s

/-- CMP ZPX, 0xD5 (R162). -/
def execCmpZpx (zp : Byte) (s : State) : Host.Outcome State Fault Refusal := runEntry 0xD5 (.zpx zp) semCmp s

/-- CMP ABS, 0xCD (R162). -/
def execCmpAbs (addr : Word) (s : State) : Host.Outcome State Fault Refusal := runEntry 0xCD (.abs addr) semCmp s

/-- CMP ABX, 0xDD (R162). -/
def execCmpAbx (addr : Word) (s : State) : Host.Outcome State Fault Refusal := runEntry 0xDD (.abx addr) semCmp s

/-- CMP ABY, 0xD9 (R162). -/
def execCmpAby (addr : Word) (s : State) : Host.Outcome State Fault Refusal := runEntry 0xD9 (.aby addr) semCmp s

/-- CMP IZX, 0xC1 (R162). -/
def execCmpIzx (zp : Byte) (s : State) : Host.Outcome State Fault Refusal := runEntry 0xC1 (.izx zp) semCmp s

/-- CMP IZY, 0xD1 (R162). -/
def execCmpIzy (zp : Byte) (s : State) : Host.Outcome State Fault Refusal := runEntry 0xD1 (.izy zp) semCmp s

/-! #### CPX (R163) -/

/-- CPX IMM, 0xE0 (R163). -/
def execCpxImm (v : Byte) (s : State) : Host.Outcome State Fault Refusal := runEntry 0xE0 (.imm v) semCpx s

/-- CPX ZP0, 0xE4 (R163). -/
def execCpxZp0 (zp : Byte) (s : State) : Host.Outcome State Fault Refusal := runEntry 0xE4 (.zp0 zp) semCpx s

/-- CPX ABS, 0xEC (R163). -/
def execCpxAbs (addr : Word) (s : State) : Host.Outcome State Fault Refusal := runEntry 0xEC (.abs addr) semCpx s

/-! #### CPY (R164) -/

/-- CPY IMM, 0xC0 (R164). -/
def execCpyImm (v : Byte) (s : State) : Host.Outcome State Fault Refusal := runEntry 0xC0 (.imm v) semCpy s

/-- CPY ZP0, 0xC4 (R164). -/
def execCpyZp0 (zp : Byte) (s : State) : Host.Outcome State Fault Refusal := runEntry 0xC4 (.zp0 zp) semCpy s

/-- CPY ABS, 0xCC (R164). -/
def execCpyAbs (addr : Word) (s : State) : Host.Outcome State Fault Refusal := runEntry 0xCC (.abs addr) semCpy s

end Sys2Proof.Machine
end

