-- ==== Sys2Proof/Machine/Branch.lean ====
section
/-! DEFINITION. Conditional branches (43_branch.md R180 to R188). Each semantic is the pseudocode of
its rule; each `exec` definition is one row of the opcode map (30_encoding.md R106): its opcode, its mode with the operand,
and its semantic, run by `runEntry`. -/

namespace Sys2Proof.Machine

/-- `Branch(cond)` (R180): the target is PC, past the displacement, plus relative_offset, modulo 65536; taken costs one cycle,
another page one more. -/
def branch (cond : Bool) (s : State) : Effect :=
  if cond then
    let target := s.pc + s.relativeOffset
    { state := { s with pc := target }, pen := false, br := if hi target = hi s.pc then 1 else 2 }
  else plain s

/-- BCC (R181). -/
def semBcc (_o : Operand) (s : State) : Effect := branch (!s.p.c) s

/-- BCS (R182). -/
def semBcs (_o : Operand) (s : State) : Effect := branch s.p.c s

/-- BEQ (R183). -/
def semBeq (_o : Operand) (s : State) : Effect := branch s.p.z s

/-- BMI (R184). -/
def semBmi (_o : Operand) (s : State) : Effect := branch s.p.n s

/-- BNE (R185). -/
def semBne (_o : Operand) (s : State) : Effect := branch (!s.p.z) s

/-- BPL (R186). -/
def semBpl (_o : Operand) (s : State) : Effect := branch (!s.p.n) s

/-- BVC (R187). -/
def semBvc (_o : Operand) (s : State) : Effect := branch (!s.p.v) s

/-- BVS (R188). -/
def semBvs (_o : Operand) (s : State) : Effect := branch s.p.v s

/-! #### BCC (R181) -/

/-- BCC REL, 0x90 (R181). -/
def execBcc (disp : Byte) (s : State) : Host.Outcome State Fault Refusal := runEntry 0x90 (.rel disp) semBcc s

/-! #### BCS (R182) -/

/-- BCS REL, 0xB0 (R182). -/
def execBcs (disp : Byte) (s : State) : Host.Outcome State Fault Refusal := runEntry 0xB0 (.rel disp) semBcs s

/-! #### BEQ (R183) -/

/-- BEQ REL, 0xF0 (R183). -/
def execBeq (disp : Byte) (s : State) : Host.Outcome State Fault Refusal := runEntry 0xF0 (.rel disp) semBeq s

/-! #### BMI (R184) -/

/-- BMI REL, 0x30 (R184). -/
def execBmi (disp : Byte) (s : State) : Host.Outcome State Fault Refusal := runEntry 0x30 (.rel disp) semBmi s

/-! #### BNE (R185) -/

/-- BNE REL, 0xD0 (R185). -/
def execBne (disp : Byte) (s : State) : Host.Outcome State Fault Refusal := runEntry 0xD0 (.rel disp) semBne s

/-! #### BPL (R186) -/

/-- BPL REL, 0x10 (R186). -/
def execBpl (disp : Byte) (s : State) : Host.Outcome State Fault Refusal := runEntry 0x10 (.rel disp) semBpl s

/-! #### BVC (R187) -/

/-- BVC REL, 0x50 (R187). -/
def execBvc (disp : Byte) (s : State) : Host.Outcome State Fault Refusal := runEntry 0x50 (.rel disp) semBvc s

/-! #### BVS (R188) -/

/-- BVS REL, 0x70 (R188). -/
def execBvs (disp : Byte) (s : State) : Host.Outcome State Fault Refusal := runEntry 0x70 (.rel disp) semBvs s

end Sys2Proof.Machine
end

