-- ==== Sys2Proof/Machine/FlagNop.lean ====
section
/-! DEFINITION. Flag instructions and NOP (49_flags_nop.md R250 to R257). Each semantic is the pseudocode of
its rule; each `exec` definition is one row of the opcode map (30_encoding.md R106): its opcode, its mode with the operand,
and its semantic, run by `runEntry`. -/

namespace Sys2Proof.Machine

/-- CLC (R250). -/
def semClc (_o : Operand) (s : State) : Effect := plain { s with p := setFlag .c false s.p }

/-- CLD (R251). -/
def semCld (_o : Operand) (s : State) : Effect := plain { s with p := setFlag .d false s.p }

/-- CLI (R252). -/
def semCli (_o : Operand) (s : State) : Effect := plain { s with p := setFlag .i false s.p }

/-- CLV (R253). -/
def semClv (_o : Operand) (s : State) : Effect := plain { s with p := setFlag .v false s.p }

/-- SEC (R254). -/
def semSec (_o : Operand) (s : State) : Effect := plain { s with p := setFlag .c true s.p }

/-- SED (R255). -/
def semSed (_o : Operand) (s : State) : Effect := plain { s with p := setFlag .d true s.p }

/-- SEI (R256). -/
def semSei (_o : Operand) (s : State) : Effect := plain { s with p := setFlag .i true s.p }

/-- NOP (R257). -/
def semNop (_o : Operand) (s : State) : Effect := plain s

/-! #### CLC (R250) -/

/-- CLC IMP, 0x18 (R250). -/
def execClc (s : State) : Host.Outcome State Fault Refusal := runEntry 0x18 .imp semClc s

/-! #### CLD (R251) -/

/-- CLD IMP, 0xD8 (R251). -/
def execCld (s : State) : Host.Outcome State Fault Refusal := runEntry 0xD8 .imp semCld s

/-! #### CLI (R252) -/

/-- CLI IMP, 0x58 (R252). -/
def execCli (s : State) : Host.Outcome State Fault Refusal := runEntry 0x58 .imp semCli s

/-! #### CLV (R253) -/

/-- CLV IMP, 0xB8 (R253). -/
def execClv (s : State) : Host.Outcome State Fault Refusal := runEntry 0xB8 .imp semClv s

/-! #### SEC (R254) -/

/-- SEC IMP, 0x38 (R254). -/
def execSec (s : State) : Host.Outcome State Fault Refusal := runEntry 0x38 .imp semSec s

/-! #### SED (R255) -/

/-- SED IMP, 0xF8 (R255). -/
def execSed (s : State) : Host.Outcome State Fault Refusal := runEntry 0xF8 .imp semSed s

/-! #### SEI (R256) -/

/-- SEI IMP, 0x78 (R256). -/
def execSei (s : State) : Host.Outcome State Fault Refusal := runEntry 0x78 .imp semSei s

/-! #### NOP (R257) -/

/-- NOP IMP, 0xEA (R257). -/
def execNop (s : State) : Host.Outcome State Fault Refusal := runEntry 0xEA .imp semNop s

end Sys2Proof.Machine
end

