-- ==== Sys2Proof/Machine/Illegal.lean ====
section
/-! DEFINITION. The fatal entry of the dispatch table (30_encoding.md R107, 40_engine.md R138). -/

namespace Sys2Proof.Machine

/-- An unimplemented opcode (R138): UnimplementedOpcode with the opcode byte and the address it was fetched from. No resolver
and no semantic runs. The halted state it leaves is `haltState` (log 6). -/
def execUnimplemented (opcode : Byte) (s : State) : Host.Outcome State Fault Refusal :=
  .fault (.unimplementedOpcode opcode s.pc)

end Sys2Proof.Machine
end

