-- ==== Sys2Proof/Machine/IncDec.lean ====
section
/-! DEFINITION. Increment and decrement instructions (48_incdec.md R240 to R245). None writes C or V. Each semantic is the pseudocode of
its rule; each `exec` definition is one row of the opcode map (30_encoding.md R106): its opcode, its mode with the operand,
and its semantic, run by `runEntry`. -/

namespace Sys2Proof.Machine

/-- INC (R240): one read, then one write (R136). -/
def semInc (o : Operand) (s : State) : Effect :=
  let r := operandValue o s + 1
  let s1 := writeBack o r s
  plain { s1 with p := setNZ r s1.p }

/-- DEC (R241): one read, then one write (R136). -/
def semDec (o : Operand) (s : State) : Effect :=
  let r := operandValue o s + 0xFF
  let s1 := writeBack o r s
  plain { s1 with p := setNZ r s1.p }

/-- INX (R242). -/
def semInx (_o : Operand) (s : State) : Effect := plain { s with x := s.x + 1, p := setNZ (s.x + 1) s.p }

/-- INY (R243). -/
def semIny (_o : Operand) (s : State) : Effect := plain { s with y := s.y + 1, p := setNZ (s.y + 1) s.p }

/-- DEX (R244). -/
def semDex (_o : Operand) (s : State) : Effect := plain { s with x := s.x + 0xFF, p := setNZ (s.x + 0xFF) s.p }

/-- DEY (R245). -/
def semDey (_o : Operand) (s : State) : Effect := plain { s with y := s.y + 0xFF, p := setNZ (s.y + 0xFF) s.p }

/-! #### INC (R240) -/

/-- INC ZP0, 0xE6 (R240). -/
def execIncZp0 (zp : Byte) (s : State) : Host.Outcome State Fault Refusal := runEntry 0xE6 (.zp0 zp) semInc s

/-- INC ZPX, 0xF6 (R240). -/
def execIncZpx (zp : Byte) (s : State) : Host.Outcome State Fault Refusal := runEntry 0xF6 (.zpx zp) semInc s

/-- INC ABS, 0xEE (R240). -/
def execIncAbs (addr : Word) (s : State) : Host.Outcome State Fault Refusal := runEntry 0xEE (.abs addr) semInc s

/-- INC ABX, 0xFE (R240). -/
def execIncAbx (addr : Word) (s : State) : Host.Outcome State Fault Refusal := runEntry 0xFE (.abx addr) semInc s

/-! #### DEC (R241) -/

/-- DEC ZP0, 0xC6 (R241). -/
def execDecZp0 (zp : Byte) (s : State) : Host.Outcome State Fault Refusal := runEntry 0xC6 (.zp0 zp) semDec s

/-- DEC ZPX, 0xD6 (R241). -/
def execDecZpx (zp : Byte) (s : State) : Host.Outcome State Fault Refusal := runEntry 0xD6 (.zpx zp) semDec s

/-- DEC ABS, 0xCE (R241). -/
def execDecAbs (addr : Word) (s : State) : Host.Outcome State Fault Refusal := runEntry 0xCE (.abs addr) semDec s

/-- DEC ABX, 0xDE (R241). -/
def execDecAbx (addr : Word) (s : State) : Host.Outcome State Fault Refusal := runEntry 0xDE (.abx addr) semDec s

/-! #### INX (R242) -/

/-- INX IMP, 0xE8 (R242). -/
def execInx (s : State) : Host.Outcome State Fault Refusal := runEntry 0xE8 .imp semInx s

/-! #### INY (R243) -/

/-- INY IMP, 0xC8 (R243). -/
def execIny (s : State) : Host.Outcome State Fault Refusal := runEntry 0xC8 .imp semIny s

/-! #### DEX (R244) -/

/-- DEX IMP, 0xCA (R244). -/
def execDex (s : State) : Host.Outcome State Fault Refusal := runEntry 0xCA .imp semDex s

/-! #### DEY (R245) -/

/-- DEY IMP, 0x88 (R245). -/
def execDey (s : State) : Host.Outcome State Fault Refusal := runEntry 0x88 .imp semDey s

end Sys2Proof.Machine
end

