-- ==== Sys2Proof/Machine/Jump.lean ====
section
/-! DEFINITION. Jumps, subroutines, BRK and RTI (44_jump_subroutine.md R190 to R194). Each semantic is the pseudocode of
its rule; each `exec` definition is one row of the opcode map (30_encoding.md R106): its opcode, its mode with the operand,
and its semantic, run by `runEntry`. -/

namespace Sys2Proof.Machine

/-- JMP (R190): to operand_address, for IND the pointer's contents. -/
def semJmp (_o : Operand) (s : State) : Effect := plain { s with pc := s.operandAddress }

/-- JSR (R191): push PC - 1, high byte first, and jump. The operand bytes were read before the pushes (R71). -/
def semJsr (_o : Operand) (s : State) : Effect :=
  let ret := s.pc - 1
  plain { push (lo ret) (push (hi ret) s) with pc := s.operandAddress }

/-- RTS (R192): pull low, then high, and go to that address plus 1. -/
def semRts (_o : Operand) (s : State) : Effect :=
  let l := pullByte s
  let s1 := pullState s
  let h := pullByte s1
  plain { pullState s1 with pc := w16 l h + 1 }

/-- BRK (R193): skip the padding byte and take the software interrupt with B = 1. -/
def semBrk (_o : Operand) (s : State) : Effect := plain (interruptEntry irqVector true { s with pc := s.pc + 1 })

/-- RTI (R194). -/
def semRti (_o : Operand) (s : State) : Effect := plain (interruptReturn s)

/-! #### JMP (R190) -/

/-- JMP ABS, 0x4C (R190). -/
def execJmpAbs (addr : Word) (s : State) : Host.Outcome State Fault Refusal := runEntry 0x4C (.abs addr) semJmp s

/-- JMP IND, 0x6C (R190). -/
def execJmpInd (addr : Word) (s : State) : Host.Outcome State Fault Refusal := runEntry 0x6C (.ind addr) semJmp s

/-! #### JSR (R191) -/

/-- JSR ABS, 0x20 (R191). -/
def execJsr (addr : Word) (s : State) : Host.Outcome State Fault Refusal := runEntry 0x20 (.abs addr) semJsr s

/-! #### RTS (R192) -/

/-- RTS IMP, 0x60 (R192). -/
def execRts (s : State) : Host.Outcome State Fault Refusal := runEntry 0x60 .imp semRts s

/-! #### BRK (R193) -/

/-- BRK IMP, 0x00 (R193). -/
def execBrk (s : State) : Host.Outcome State Fault Refusal := runEntry 0x00 .imp semBrk s

/-! #### RTI (R194) -/

/-- RTI IMP, 0x40 (R194). -/
def execRti (s : State) : Host.Outcome State Fault Refusal := runEntry 0x40 .imp semRti s

end Sys2Proof.Machine
end

