-- ==== Sys2Proof/Machine/LoadStore.lean ====
section
/-! DEFINITION. Loads, stores and register transfers (46_load_store_transfer.md R210 to R221). Each semantic is the pseudocode of
its rule; each `exec` definition is one row of the opcode map (30_encoding.md R106): its opcode, its mode with the operand,
and its semantic, run by `runEntry`. -/

namespace Sys2Proof.Machine

/-- LDA (R210). Penalty-capable. -/
def semLda (o : Operand) (s : State) : Effect :=
  let v := operandValue o s
  penal { s with a := v, p := setNZ v s.p }

/-- LDX (R211). Penalty-capable. -/
def semLdx (o : Operand) (s : State) : Effect :=
  let v := operandValue o s
  penal { s with x := v, p := setNZ v s.p }

/-- LDY (R212). Penalty-capable. -/
def semLdy (o : Operand) (s : State) : Effect :=
  let v := operandValue o s
  penal { s with y := v, p := setNZ v s.p }

/-- STA (R213). -/
def semSta (_o : Operand) (s : State) : Effect := plain (memWrite s.operandAddress s.a s)

/-- STX (R214). -/
def semStx (_o : Operand) (s : State) : Effect := plain (memWrite s.operandAddress s.x s)

/-- STY (R215). -/
def semSty (_o : Operand) (s : State) : Effect := plain (memWrite s.operandAddress s.y s)

/-- TAX (R216). -/
def semTax (_o : Operand) (s : State) : Effect := plain { s with x := s.a, p := setNZ s.a s.p }

/-- TAY (R217). -/
def semTay (_o : Operand) (s : State) : Effect := plain { s with y := s.a, p := setNZ s.a s.p }

/-- TXA (R218). -/
def semTxa (_o : Operand) (s : State) : Effect := plain { s with a := s.x, p := setNZ s.x s.p }

/-- TYA (R219). -/
def semTya (_o : Operand) (s : State) : Effect := plain { s with a := s.y, p := setNZ s.y s.p }

/-- TSX (R220). -/
def semTsx (_o : Operand) (s : State) : Effect := plain { s with x := s.sp, p := setNZ s.sp s.p }

/-- TXS (R221): the one transfer that writes no flag. -/
def semTxs (_o : Operand) (s : State) : Effect := plain { s with sp := s.x }

/-! #### LDA (R210) -/

/-- LDA IMM, 0xA9 (R210). -/
def execLdaImm (v : Byte) (s : State) : Host.Outcome State Fault Refusal := runEntry 0xA9 (.imm v) semLda s

/-- LDA ZP0, 0xA5 (R210). -/
def execLdaZp0 (zp : Byte) (s : State) : Host.Outcome State Fault Refusal := runEntry 0xA5 (.zp0 zp) semLda s

/-- LDA ZPX, 0xB5 (R210). -/
def execLdaZpx (zp : Byte) (s : State) : Host.Outcome State Fault Refusal := runEntry 0xB5 (.zpx zp) semLda s

/-- LDA ABS, 0xAD (R210). -/
def execLdaAbs (addr : Word) (s : State) : Host.Outcome State Fault Refusal := runEntry 0xAD (.abs addr) semLda s

/-- LDA ABX, 0xBD (R210). -/
def execLdaAbx (addr : Word) (s : State) : Host.Outcome State Fault Refusal := runEntry 0xBD (.abx addr) semLda s

/-- LDA ABY, 0xB9 (R210). -/
def execLdaAby (addr : Word) (s : State) : Host.Outcome State Fault Refusal := runEntry 0xB9 (.aby addr) semLda s

/-- LDA IZX, 0xA1 (R210). -/
def execLdaIzx (zp : Byte) (s : State) : Host.Outcome State Fault Refusal := runEntry 0xA1 (.izx zp) semLda s

/-- LDA IZY, 0xB1 (R210). -/
def execLdaIzy (zp : Byte) (s : State) : Host.Outcome State Fault Refusal := runEntry 0xB1 (.izy zp) semLda s

/-! #### LDX (R211) -/

/-- LDX IMM, 0xA2 (R211). -/
def execLdxImm (v : Byte) (s : State) : Host.Outcome State Fault Refusal := runEntry 0xA2 (.imm v) semLdx s

/-- LDX ZP0, 0xA6 (R211). -/
def execLdxZp0 (zp : Byte) (s : State) : Host.Outcome State Fault Refusal := runEntry 0xA6 (.zp0 zp) semLdx s

/-- LDX ZPY, 0xB6 (R211). -/
def execLdxZpy (zp : Byte) (s : State) : Host.Outcome State Fault Refusal := runEntry 0xB6 (.zpy zp) semLdx s

/-- LDX ABS, 0xAE (R211). -/
def execLdxAbs (addr : Word) (s : State) : Host.Outcome State Fault Refusal := runEntry 0xAE (.abs addr) semLdx s

/-- LDX ABY, 0xBE (R211). -/
def execLdxAby (addr : Word) (s : State) : Host.Outcome State Fault Refusal := runEntry 0xBE (.aby addr) semLdx s

/-! #### LDY (R212) -/

/-- LDY IMM, 0xA0 (R212). -/
def execLdyImm (v : Byte) (s : State) : Host.Outcome State Fault Refusal := runEntry 0xA0 (.imm v) semLdy s

/-- LDY ZP0, 0xA4 (R212). -/
def execLdyZp0 (zp : Byte) (s : State) : Host.Outcome State Fault Refusal := runEntry 0xA4 (.zp0 zp) semLdy s

/-- LDY ZPX, 0xB4 (R212). -/
def execLdyZpx (zp : Byte) (s : State) : Host.Outcome State Fault Refusal := runEntry 0xB4 (.zpx zp) semLdy s

/-- LDY ABS, 0xAC (R212). -/
def execLdyAbs (addr : Word) (s : State) : Host.Outcome State Fault Refusal := runEntry 0xAC (.abs addr) semLdy s

/-- LDY ABX, 0xBC (R212). -/
def execLdyAbx (addr : Word) (s : State) : Host.Outcome State Fault Refusal := runEntry 0xBC (.abx addr) semLdy s

/-! #### STA (R213) -/

/-- STA ZP0, 0x85 (R213). -/
def execStaZp0 (zp : Byte) (s : State) : Host.Outcome State Fault Refusal := runEntry 0x85 (.zp0 zp) semSta s

/-- STA ZPX, 0x95 (R213). -/
def execStaZpx (zp : Byte) (s : State) : Host.Outcome State Fault Refusal := runEntry 0x95 (.zpx zp) semSta s

/-- STA ABS, 0x8D (R213). -/
def execStaAbs (addr : Word) (s : State) : Host.Outcome State Fault Refusal := runEntry 0x8D (.abs addr) semSta s

/-- STA ABX, 0x9D (R213). -/
def execStaAbx (addr : Word) (s : State) : Host.Outcome State Fault Refusal := runEntry 0x9D (.abx addr) semSta s

/-- STA ABY, 0x99 (R213). -/
def execStaAby (addr : Word) (s : State) : Host.Outcome State Fault Refusal := runEntry 0x99 (.aby addr) semSta s

/-- STA IZX, 0x81 (R213). -/
def execStaIzx (zp : Byte) (s : State) : Host.Outcome State Fault Refusal := runEntry 0x81 (.izx zp) semSta s

/-- STA IZY, 0x91 (R213). -/
def execStaIzy (zp : Byte) (s : State) : Host.Outcome State Fault Refusal := runEntry 0x91 (.izy zp) semSta s

/-! #### STX (R214) -/

/-- STX ZP0, 0x86 (R214). -/
def execStxZp0 (zp : Byte) (s : State) : Host.Outcome State Fault Refusal := runEntry 0x86 (.zp0 zp) semStx s

/-- STX ZPY, 0x96 (R214). -/
def execStxZpy (zp : Byte) (s : State) : Host.Outcome State Fault Refusal := runEntry 0x96 (.zpy zp) semStx s

/-- STX ABS, 0x8E (R214). -/
def execStxAbs (addr : Word) (s : State) : Host.Outcome State Fault Refusal := runEntry 0x8E (.abs addr) semStx s

/-! #### STY (R215) -/

/-- STY ZP0, 0x84 (R215). -/
def execStyZp0 (zp : Byte) (s : State) : Host.Outcome State Fault Refusal := runEntry 0x84 (.zp0 zp) semSty s

/-- STY ZPX, 0x94 (R215). -/
def execStyZpx (zp : Byte) (s : State) : Host.Outcome State Fault Refusal := runEntry 0x94 (.zpx zp) semSty s

/-- STY ABS, 0x8C (R215). -/
def execStyAbs (addr : Word) (s : State) : Host.Outcome State Fault Refusal := runEntry 0x8C (.abs addr) semSty s

/-! #### TAX (R216) -/

/-- TAX IMP, 0xAA (R216). -/
def execTax (s : State) : Host.Outcome State Fault Refusal := runEntry 0xAA .imp semTax s

/-! #### TAY (R217) -/

/-- TAY IMP, 0xA8 (R217). -/
def execTay (s : State) : Host.Outcome State Fault Refusal := runEntry 0xA8 .imp semTay s

/-! #### TXA (R218) -/

/-- TXA IMP, 0x8A (R218). -/
def execTxa (s : State) : Host.Outcome State Fault Refusal := runEntry 0x8A .imp semTxa s

/-! #### TYA (R219) -/

/-- TYA IMP, 0x98 (R219). -/
def execTya (s : State) : Host.Outcome State Fault Refusal := runEntry 0x98 .imp semTya s

/-! #### TSX (R220) -/

/-- TSX IMP, 0xBA (R220). -/
def execTsx (s : State) : Host.Outcome State Fault Refusal := runEntry 0xBA .imp semTsx s

/-! #### TXS (R221) -/

/-- TXS IMP, 0x9A (R221). -/
def execTxs (s : State) : Host.Outcome State Fault Refusal := runEntry 0x9A .imp semTxs s

end Sys2Proof.Machine
end

