-- ==== Sys2Proof/Machine/Logical.lean ====
section
/-! DEFINITION. Logical instructions and BIT (47_logical.md R230 to R233). Each semantic is the pseudocode of
its rule; each `exec` definition is one row of the opcode map (30_encoding.md R106): its opcode, its mode with the operand,
and its semantic, run by `runEntry`. -/

namespace Sys2Proof.Machine

/-- The common end of AND, ORA and EOR: the result to A, N and Z from it. Penalty-capable. -/
def logicalResult (r : Byte) (s : State) : Effect := penal { s with a := r, p := setNZ r s.p }

/-- AND (R230). -/
def semAnd (o : Operand) (s : State) : Effect := logicalResult (s.a &&& operandValue o s) s

/-- ORA (R231). -/
def semOra (o : Operand) (s : State) : Effect := logicalResult (s.a ||| operandValue o s) s

/-- EOR (R232). -/
def semEor (o : Operand) (s : State) : Effect := logicalResult (s.a ^^^ operandValue o s) s

/-- BIT (R233). -/
def semBit (o : Operand) (s : State) : Effect := plain { s with p := bitFlags s.a (operandValue o s) s.p }

/-! #### AND (R230) -/

/-- AND IMM, 0x29 (R230). -/
def execAndImm (v : Byte) (s : State) : Host.Outcome State Fault Refusal := runEntry 0x29 (.imm v) semAnd s

/-- AND ZP0, 0x25 (R230). -/
def execAndZp0 (zp : Byte) (s : State) : Host.Outcome State Fault Refusal := runEntry 0x25 (.zp0 zp) semAnd s

/-- AND ZPX, 0x35 (R230). -/
def execAndZpx (zp : Byte) (s : State) : Host.Outcome State Fault Refusal := runEntry 0x35 (.zpx zp) semAnd s

/-- AND ABS, 0x2D (R230). -/
def execAndAbs (addr : Word) (s : State) : Host.Outcome State Fault Refusal := runEntry 0x2D (.abs addr) semAnd s

/-- AND ABX, 0x3D (R230). -/
def execAndAbx (addr : Word) (s : State) : Host.Outcome State Fault Refusal := runEntry 0x3D (.abx addr) semAnd s

/-- AND ABY, 0x39 (R230). -/
def execAndAby (addr : Word) (s : State) : Host.Outcome State Fault Refusal := runEntry 0x39 (.aby addr) semAnd s

/-- AND IZX, 0x21 (R230). -/
def execAndIzx (zp : Byte) (s : State) : Host.Outcome State Fault Refusal := runEntry 0x21 (.izx zp) semAnd s

/-- AND IZY, 0x31 (R230). -/
def execAndIzy (zp : Byte) (s : State) : Host.Outcome State Fault Refusal := runEntry 0x31 (.izy zp) semAnd s

/-! #### ORA (R231) -/

/-- ORA IMM, 0x09 (R231). -/
def execOraImm (v : Byte) (s : State) : Host.Outcome State Fault Refusal := runEntry 0x09 (.imm v) semOra s

/-- ORA ZP0, 0x05 (R231). -/
def execOraZp0 (zp : Byte) (s : State) : Host.Outcome State Fault Refusal := runEntry 0x05 (.zp0 zp) semOra s

/-- ORA ZPX, 0x15 (R231). -/
def execOraZpx (zp : Byte) (s : State) : Host.Outcome State Fault Refusal := runEntry 0x15 (.zpx zp) semOra s

/-- ORA ABS, 0x0D (R231). -/
def execOraAbs (addr : Word) (s : State) : Host.Outcome State Fault Refusal := runEntry 0x0D (.abs addr) semOra s

/-- ORA ABX, 0x1D (R231). -/
def execOraAbx (addr : Word) (s : State) : Host.Outcome State Fault Refusal := runEntry 0x1D (.abx addr) semOra s

/-- ORA ABY, 0x19 (R231). -/
def execOraAby (addr : Word) (s : State) : Host.Outcome State Fault Refusal := runEntry 0x19 (.aby addr) semOra s

/-- ORA IZX, 0x01 (R231). -/
def execOraIzx (zp : Byte) (s : State) : Host.Outcome State Fault Refusal := runEntry 0x01 (.izx zp) semOra s

/-- ORA IZY, 0x11 (R231). -/
def execOraIzy (zp : Byte) (s : State) : Host.Outcome State Fault Refusal := runEntry 0x11 (.izy zp) semOra s

/-! #### EOR (R232) -/

/-- EOR IMM, 0x49 (R232). -/
def execEorImm (v : Byte) (s : State) : Host.Outcome State Fault Refusal := runEntry 0x49 (.imm v) semEor s

/-- EOR ZP0, 0x45 (R232). -/
def execEorZp0 (zp : Byte) (s : State) : Host.Outcome State Fault Refusal := runEntry 0x45 (.zp0 zp) semEor s

/-- EOR ZPX, 0x55 (R232). -/
def execEorZpx (zp : Byte) (s : State) : Host.Outcome State Fault Refusal := runEntry 0x55 (.zpx zp) semEor s

/-- EOR ABS, 0x4D (R232). -/
def execEorAbs (addr : Word) (s : State) : Host.Outcome State Fault Refusal := runEntry 0x4D (.abs addr) semEor s

/-- EOR ABX, 0x5D (R232). -/
def execEorAbx (addr : Word) (s : State) : Host.Outcome State Fault Refusal := runEntry 0x5D (.abx addr) semEor s

/-- EOR ABY, 0x59 (R232). -/
def execEorAby (addr : Word) (s : State) : Host.Outcome State Fault Refusal := runEntry 0x59 (.aby addr) semEor s

/-- EOR IZX, 0x41 (R232). -/
def execEorIzx (zp : Byte) (s : State) : Host.Outcome State Fault Refusal := runEntry 0x41 (.izx zp) semEor s

/-- EOR IZY, 0x51 (R232). -/
def execEorIzy (zp : Byte) (s : State) : Host.Outcome State Fault Refusal := runEntry 0x51 (.izy zp) semEor s

/-! #### BIT (R233) -/

/-- BIT ZP0, 0x24 (R233). -/
def execBitZp0 (zp : Byte) (s : State) : Host.Outcome State Fault Refusal := runEntry 0x24 (.zp0 zp) semBit s

/-- BIT ABS, 0x2C (R233). -/
def execBitAbs (addr : Word) (s : State) : Host.Outcome State Fault Refusal := runEntry 0x2C (.abs addr) semBit s

end Sys2Proof.Machine
end

