-- ==== Sys2Proof/Machine/Shift.lean ====
section
/-! DEFINITION. Shift and rotate instructions (42_shift_rotate.md R170 to R173): ASL, LSR, ROL, ROR, on A or on memory. Each semantic is the pseudocode of
its rule; each `exec` definition is one row of the opcode map (30_encoding.md R106): its opcode, its mode with the operand,
and its semantic, run by `runEntry`. -/

namespace Sys2Proof.Machine

/-- The common end of a shift or rotate: write the result back, set C to the bit shifted out and N and Z from the result. -/
def shiftResult (o : Operand) (r : Byte) (carry : Bool) (s : State) : Effect :=
  let s1 := writeBack o r s
  plain { s1 with p := setNZ r { s1.p with c := carry } }

/-- ASL (R170). -/
def semAsl (o : Operand) (s : State) : Effect :=
  let m := operandValue o s
  shiftResult o (m <<< 1) (m.getLsbD 7) s

/-- LSR (R171): bit 7 of the result is 0, so N is cleared. -/
def semLsr (o : Operand) (s : State) : Effect :=
  let m := operandValue o s
  shiftResult o (m >>> 1) (m.getLsbD 0) s

/-- ROL (R172): the previous C enters bit 0. -/
def semRol (o : Operand) (s : State) : Effect :=
  let m := operandValue o s
  shiftResult o (m <<< 1 ||| (BitVec.ofBool s.p.c).setWidth 8) (m.getLsbD 7) s

/-- ROR (R173): the previous C enters bit 7, so N is the previous C (90_conflicts.md C2). -/
def semRor (o : Operand) (s : State) : Effect :=
  let m := operandValue o s
  shiftResult o ((BitVec.ofBool s.p.c).setWidth 8 <<< 7 ||| m >>> 1) (m.getLsbD 0) s

/-! #### ASL (R170) -/

/-- ASL ACC, 0x0A (R170). -/
def execAslAcc (s : State) : Host.Outcome State Fault Refusal := runEntry 0x0A .acc semAsl s

/-- ASL ZP0, 0x06 (R170). -/
def execAslZp0 (zp : Byte) (s : State) : Host.Outcome State Fault Refusal := runEntry 0x06 (.zp0 zp) semAsl s

/-- ASL ZPX, 0x16 (R170). -/
def execAslZpx (zp : Byte) (s : State) : Host.Outcome State Fault Refusal := runEntry 0x16 (.zpx zp) semAsl s

/-- ASL ABS, 0x0E (R170). -/
def execAslAbs (addr : Word) (s : State) : Host.Outcome State Fault Refusal := runEntry 0x0E (.abs addr) semAsl s

/-- ASL ABX, 0x1E (R170). -/
def execAslAbx (addr : Word) (s : State) : Host.Outcome State Fault Refusal := runEntry 0x1E (.abx addr) semAsl s

/-! #### LSR (R171) -/

/-- LSR ACC, 0x4A (R171). -/
def execLsrAcc (s : State) : Host.Outcome State Fault Refusal := runEntry 0x4A .acc semLsr s

/-- LSR ZP0, 0x46 (R171). -/
def execLsrZp0 (zp : Byte) (s : State) : Host.Outcome State Fault Refusal := runEntry 0x46 (.zp0 zp) semLsr s

/-- LSR ZPX, 0x56 (R171). -/
def execLsrZpx (zp : Byte) (s : State) : Host.Outcome State Fault Refusal := runEntry 0x56 (.zpx zp) semLsr s

/-- LSR ABS, 0x4E (R171). -/
def execLsrAbs (addr : Word) (s : State) : Host.Outcome State Fault Refusal := runEntry 0x4E (.abs addr) semLsr s

/-- LSR ABX, 0x5E (R171). -/
def execLsrAbx (addr : Word) (s : State) : Host.Outcome State Fault Refusal := runEntry 0x5E (.abx addr) semLsr s

/-! #### ROL (R172) -/

/-- ROL ACC, 0x2A (R172). -/
def execRolAcc (s : State) : Host.Outcome State Fault Refusal := runEntry 0x2A .acc semRol s

/-- ROL ZP0, 0x26 (R172). -/
def execRolZp0 (zp : Byte) (s : State) : Host.Outcome State Fault Refusal := runEntry 0x26 (.zp0 zp) semRol s

/-- ROL ZPX, 0x36 (R172). -/
def execRolZpx (zp : Byte) (s : State) : Host.Outcome State Fault Refusal := runEntry 0x36 (.zpx zp) semRol s

/-- ROL ABS, 0x2E (R172). -/
def execRolAbs (addr : Word) (s : State) : Host.Outcome State Fault Refusal := runEntry 0x2E (.abs addr) semRol s

/-- ROL ABX, 0x3E (R172). -/
def execRolAbx (addr : Word) (s : State) : Host.Outcome State Fault Refusal := runEntry 0x3E (.abx addr) semRol s

/-! #### ROR (R173) -/

/-- ROR ACC, 0x6A (R173). -/
def execRorAcc (s : State) : Host.Outcome State Fault Refusal := runEntry 0x6A .acc semRor s

/-- ROR ZP0, 0x66 (R173). -/
def execRorZp0 (zp : Byte) (s : State) : Host.Outcome State Fault Refusal := runEntry 0x66 (.zp0 zp) semRor s

/-- ROR ZPX, 0x76 (R173). -/
def execRorZpx (zp : Byte) (s : State) : Host.Outcome State Fault Refusal := runEntry 0x76 (.zpx zp) semRor s

/-- ROR ABS, 0x6E (R173). -/
def execRorAbs (addr : Word) (s : State) : Host.Outcome State Fault Refusal := runEntry 0x6E (.abs addr) semRor s

/-- ROR ABX, 0x7E (R173). -/
def execRorAbx (addr : Word) (s : State) : Host.Outcome State Fault Refusal := runEntry 0x7E (.abx addr) semRor s

end Sys2Proof.Machine
end

