-- ==== Sys2Proof/Machine/Stack.lean ====
section
/-! DEFINITION. Stack instructions (45_stack.md R201 to R204): PHA, PHP, PLA, PLP. Each semantic is the pseudocode of
its rule; each `exec` definition is one row of the opcode map (30_encoding.md R106): its opcode, its mode with the operand,
and its semantic, run by `runEntry`. -/

namespace Sys2Proof.Machine

/-- PHA (R201). -/
def semPha (_o : Operand) (s : State) : Effect := plain (push s.a s)

/-- PHP (R202): bits 5 and 4 of the pushed byte forced to 1. -/
def semPhp (_o : Operand) (s : State) : Effect := plain (push (phpStatus s.p) s)

/-- PLA (R203). -/
def semPla (_o : Operand) (s : State) : Effect :=
  let v := pullByte s
  plain { pullState s with a := v, p := setNZ v s.p }

/-- PLP (R204): bits 5 and 4 of the pulled byte discarded. -/
def semPlp (_o : Operand) (s : State) : Effect := plain { pullState s with p := Flags.ofByte (pullByte s) }

/-! #### PHA (R201) -/

/-- PHA IMP, 0x48 (R201). -/
def execPha (s : State) : Host.Outcome State Fault Refusal := runEntry 0x48 .imp semPha s

/-! #### PHP (R202) -/

/-- PHP IMP, 0x08 (R202). -/
def execPhp (s : State) : Host.Outcome State Fault Refusal := runEntry 0x08 .imp semPhp s

/-! #### PLA (R203) -/

/-- PLA IMP, 0x68 (R203). -/
def execPla (s : State) : Host.Outcome State Fault Refusal := runEntry 0x68 .imp semPla s

/-! #### PLP (R204) -/

/-- PLP IMP, 0x28 (R204). -/
def execPlp (s : State) : Host.Outcome State Fault Refusal := runEntry 0x28 .imp semPlp s

end Sys2Proof.Machine
end

