-- ==== Sys2Proof/Machine/Engine.lean ====
section
/-! DEFINITION. The engine: fetching an instruction (30_encoding.md R92, 20_memory.md R71), `clock()` (40_engine.md R130), the
host's calls with their preconditions (40_engine.md R140, 60_exceptions.md R278), and placing an instruction where the next
fetch reads it. -/

namespace Sys2Proof.Machine

/-- The instruction at an address, its opcode and operand bytes read through the Bus in increasing address order modulo 65536
(R24, R71, R90): exactly the bytes its format has (R139). -/
def instrAt (m : Memory) (addr : Word) : Instr :=
  match opcodeMap (busRead m addr) with
  | .f1 i => i
  | .f2 k => k (busRead m (addr + 1))
  | .f3 k => k (w16 (busRead m (addr + 1)) (busRead m (addr + 2)))

/-- The size `disassemble_one` returns for the opcode at an address: the size of the opcode's mode (R111). Its text is out of
scope (00_scope.md R5). DESIGN CHOICE (log 15), unsafe: R111 gives no size for an illegal byte, which has no mode; the model
answers 1, that of the mode IMP which `Instr.operand` gives `Instr.unimplemented`. -/
def disassembleSize (m : Memory) (addr : Word) : Nat := (instrAt m addr).size

/-- The last act of every `clock()`: "always decrement `remaining_cycles` by one" (R130). -/
def countDown (s : State) : State := { s with remainingCycles := s.remainingCycles - 1 }

/-- `clock()` (R130): at remaining_cycles = 0 a fetch cycle, which runs a whole instruction (R134); otherwise only the
decrement (R133). An unimplemented opcode ends it at once (R138). -/
def clock (s : State) : Host.Outcome State Fault Refusal :=
  if s.remainingCycles = 0 then
    match exec (instrAt s.mem s.pc) s with
    | .next t => .next (countDown t)
    | .fault f => .fault f
    | .refused r => .refused r
  else .next (countDown s)

/-- A call whose precondition is "reset done" (R140, R278). -/
def afterReset (s : State) (outcome : Host.Outcome State Fault Refusal) : Host.Outcome State Fault Refusal :=
  if s.resetDone then outcome else .refused .beforeReset

/-- One call of the host (R278). When halted every call is refused (R138, R140, log 7). A getter, a Bus read and the
disassembler change nothing (R34, R74). -/
def hostCall (call : HostCall) (s : State) : Host.Outcome State Fault Refusal :=
  if s.halted.isSome then .refused .haltedBlock
  else
    match call with
    | .reset => .next (cpuReset s)
    | .clock => afterReset s (clock s)
    | .irq => afterReset s (.next (cpuIrq s))
    | .nmi => afterReset s (.next (cpuNmi s))
    | .getter _ => afterReset s (.next s)
    | .busRead _ => .next s
    | .busWrite addr v => .next (memWrite addr v s)
    | .disassemble _ => .next s

/-- What a getter answers the host, where its precondition holds (R278, decisions D22, D35). -/
def readGetter (g : Getter) (s : State) : Except Refusal Nat :=
  if s.halted.isSome then .error .haltedBlock
  else if s.resetDone then .ok (getterValue g s)
  else .error .beforeReset

/-- The state the block is in after a call: the next state, or the halted state of an unimplemented opcode (R138). A refused
call makes no claim about the state (R140). -/
def stateAfter (call : HostCall) (s : State) : Option State :=
  match hostCall call s with
  | .next t => some t
  | .fault (.unimplementedOpcode opcode address) => some (haltState opcode address s)
  | .refused _ => none

/-! ### Placing an instruction -/

/-- Put a byte where Bus reads of an address find it: a RAM cell, or a PRG-ROM byte of the cartridge as its loader does. No
other address can hold one (R52). -/
def placeByte (addr : Word) (v : Byte) (m : Memory) : Memory :=
  if inRam addr then { m with ram := cellWrite m.ram (ramKey addr) v }
  else
    match mapCpuAddress m.prgSize addr with
    | some off => { m with prg := cellWrite m.prg off v }
    | none => m

/-- Bus reads of the address come from RAM or PRG-ROM (R52). -/
def holdsBytes (addr : Word) : Bool := inRam addr || decide (0x8000 ≤ addr)

/-- Where an instruction can be placed for the next fetch: at PC, or in RAM where PC points into the addresses that hold no
bytes (log 11). -/
def placeAddress (pc : Word) : Word :=
  if holdsBytes pc && holdsBytes (pc + 1) && holdsBytes (pc + 2) then pc else 0x0200

/-- The state with an instruction's bytes where the very next step fetches them: three bytes at PC, no cycles left of the
last instruction, not halted, reset done, and no host call before the `clock()` that fetches. -/
def placeInstr (nbits w : Nat) (s : State) : State :=
  let at0 := placeAddress s.pc
  let v := w % 2 ^ nbits
  let m0 := placeByte at0 (BitVec.ofNat 8 v) s.mem
  let m1 := placeByte (at0 + 1) (BitVec.ofNat 8 (v / 256)) m0
  let m2 := placeByte (at0 + 2) (BitVec.ofNat 8 (v / 65536)) m1
  { s with pc := at0, mem := m2, remainingCycles := 0, halted := none, resetDone := true, hostCalls := [] }

end Sys2Proof.Machine
end

