-- ==== Sys2Proof/Machine/Step.lean ====
section
/-! DEFINITION. One step of the block: the next call of the host's script, and `clock()` when the script is empty (log 5). -/

namespace Sys2Proof.Machine

/-- One host call (60_exceptions.md R278): the first of the script, which is then taken off it, or `clock()`. -/
def step (s : State) : Host.Outcome State Fault Refusal :=
  match s.hostCalls with
  | [] => hostCall .clock s
  | call :: rest => hostCall call { s with hostCalls := rest }

/-- The state with an instruction stored where `step` fetches its next one (log 1, log 11). -/
def State.withFetchWord (s : State) (nbits w : Nat) : State := placeInstr nbits w s

end Sys2Proof.Machine
end

