-- ==== Sys2Proof/Machine/Cartridge.lean ====
section
/-! DEFINITION. Construction of the block: `create_bus` from an iNES image, by the data contract of 20_memory.md R60, R61, and
the state a block is in between construction and its first reset (70_reset_and_hazards.md R302). -/

namespace Sys2Proof.Machine

/-- The construction-time errors (60_exceptions.md R279). They are no events of a running block. -/
inductive ConstructionError where
  | romReadError      -- "file I/O failure"
  | unsupportedRom    -- NES 2.0, VS-Unisystem, unknown mapper number, size mismatch
  deriving DecidableEq, Repr

/-- What the block uses of the 16-byte header of an iNES image (R61). -/
structure InesHeader where
  prgBanks : Byte   -- header byte 4: PRG-ROM size in units of 16384
  chrBanks : Byte   -- header byte 5: CHR-ROM size in units of 8192
  flags6 : Byte
  flags7 : Byte
  deriving DecidableEq, Repr

/-- The header and what follows it; none for an image shorter than 16 bytes. The magic of bytes 0 to 3 is not required (R61). -/
def splitHeader : List Byte → Option (InesHeader × List Byte)
  | _ :: _ :: _ :: _ :: b4 :: b5 :: b6 :: b7 :: _ :: _ :: _ :: _ :: _ :: _ :: _ :: _ :: rest =>
    some ({ prgBanks := b4, chrBanks := b5, flags6 := b6, flags7 := b7 }, rest)
  | _ => none

/-- "mapper number", read as iNES does (R61, decision D27). -/
def mapperNumber (h : InesHeader) : Byte := (h.flags7 &&& 0xF0) ||| (h.flags6 >>> 4)

/-- The header declares an NES 2.0 extension (R61, decision D36). -/
def isNes20 (h : InesHeader) : Bool := (h.flags7 &&& 0x0C) == 0x08

/-- The header declares a VS-Unisystem ROM (R61, decision D36). -/
def isVsUnisystem (h : InesHeader) : Bool := h.flags7.getLsbD 0

/-- The length of the trainer before the PRG data: it is skipped and mapped nowhere (R61, decision D34). -/
def trainerLength (h : InesHeader) : Nat := if h.flags6.getLsbD 2 then 512 else 0

/-- The PRG-ROM sizes NROM admits (R60, decision D4): one or two banks of 16384 bytes. -/
def prgSizeOf (banks : Byte) : Option PrgSize :=
  if banks = 1 then some .kb16 else if banks = 2 then some .kb32 else none

/-- The cells of a run of bytes from a key on, in canonical form. -/
def cellsOf : Nat → List Byte → List Host.Cell
  | _, [] => []
  | key, v :: rest => if v = unlistedByte then cellsOf (key + 1) rest else (key, v) :: cellsOf (key + 1) rest

/-- The cartridge of an image's header and data: the PRG-ROM size and contents, refused where the mapper is not NROM, the
format is not supported, or the data is shorter than the header's sizes (R60, R61, log 12). -/
def buildCartridge (h : InesHeader) (data : List Byte) : Option (PrgSize × List Host.Cell) :=
  match prgSizeOf h.prgBanks with
  | none => none
  | some size =>
    let prgAndChr := data.drop (trainerLength h)
    if isNes20 h || isVsUnisystem h || mapperNumber h != 0 ||
        decide (prgAndChr.length < size.length + 8192 * h.chrBanks.toNat) then none
    else some (size, cellsOf 0 (prgAndChr.take size.length))

/-- The block right after construction (R302): the Bus with its RAM at `RAM_INIT` and the CPU with undefined registers, which
no call can observe before the first reset (U3, U4, log 10). -/
def State.constructed (mem : Memory) : State where
  a := lo (Config.atConstruction 0)
  x := lo (Config.atConstruction 1)
  y := lo (Config.atConstruction 2)
  sp := lo (Config.atConstruction 3)
  pc := Config.atConstruction 4
  p := Flags.ofByte (lo (Config.atConstruction 5))
  operandAddress := Config.atConstruction 6
  relativeOffset := Config.atConstruction 7
  remainingCycles := Config.cyclesAtConstruction
  halted := none
  resetDone := false
  mem := mem
  hostCalls := []

/-- `create_bus(rom_path)` and the CPU bound to it (R7, R60, R279, R302), from the contents of the file, none where it cannot
be read. No partial cartridge is produced. -/
def createBus : Option (List Byte) → Except ConstructionError State
  | none => .error .romReadError
  | some image =>
    match splitHeader image with
    | none => .error .unsupportedRom
    | some (h, data) =>
      match buildCartridge h data with
      | none => .error .unsupportedRom
      | some (size, cells) => .ok (State.constructed { ram := [], prgSize := size, prg := cells })

end Sys2Proof.Machine
end

