-- ==== Sys2Proof/Safety.lean ====
section
/-! DEFINITION. What counts as a safe run, in the terms claims use, and the invariant every state of a running block meets. -/

namespace Sys2Proof

/-- A run of `n` steps from `s` ends in a state: no fault and no refused call on the way. -/
def SafeRun (n : Nat) (s : Machine.State) : Prop := ∃ t, Host.Core.run core n s = .next t

/-- The CPU can be given `clock()`, `irq()` and `nmi()` (60_exceptions.md R278): reset done and not halted. -/
def Running (s : Machine.State) : Prop := s.resetDone = true ∧ s.halted = none

/-- The next step is a fetch cycle: running, no cycles left of the last instruction, no host call before the `clock()`. -/
def AtFetch (s : Machine.State) : Prop := Running s ∧ s.remainingCycles = 0 ∧ s.hostCalls = []

/-- The invariant of a running block: it is running, and its memory is in canonical form, so RAM lists at most the 2048 bytes
of 20_memory.md R53 and PRG-ROM at most its 16384 or 32768. -/
def Inv (s : Machine.State) : Prop := Running s ∧ s.mem.wf = true

end Sys2Proof
end

