-- ==== Sys2Proof/Certificates/Slice0/Obligations.lean ====
section
/-! DEFINITION. The statements for the provers, each a `Prop` formalising rules of spec/ or following from them.
OBLIGATIONS.json lists them with the rules they rest on. The definitions of `Sys2Proof.Spec` at the head give the arithmetic of
the rules a second time, in numbers (`Nat`, `Int`) where the model computes with bits, and name what several statements share. -/

namespace Sys2Proof.Spec

open Sys2Proof.Machine

/-- The state in which an instruction's semantic runs: opcode fetched, operand resolved (R130). The statements
`ResolversSetPcAndAddress`, `IndirectPointerWrapsInItsPage` and `OperandPrimitives` say what it holds. -/
def after (i : Instr) (s : State) : State := fetched i.operand s

/-- `M`, the u8 `Operand()` of the instruction (R135). -/
def operandM (i : Instr) (s : State) : Byte := operandValue i.operand (after i s)

/-- `page_cross_capable`, the Boolean the instruction's resolver returns (R93). -/
def crosses (i : Instr) (s : State) : Bool := pageCross i.operand { s with pc := s.pc + 1 }

/-- The duration of an instruction with no branch cycles (R132), `pen` being the semantic's Boolean (R137). -/
def cycles (i : Instr) (s : State) (pen : Bool) : Nat :=
  baseCycles i.opcode + (if pen = true ∧ crosses i s = true then 1 else 0)

/-- N and Z of a result, by its number (R26). -/
def nz (r : Byte) (p : Flags) : Flags := { p with n := decide (128 ≤ r.toNat), z := decide (r.toNat = 0) }

/-- An Encoding line: the instructions of a mnemonic are those of these opcodes, modes and base cycle counts (R106). -/
def EncodingIs (m : Mnemonic) (line : List (Byte × Mode × Nat)) : Prop :=
  ∀ i : Instr, i.wf = true → (i.mnemonic = m ↔ (i.opcode, i.operand.mode, baseCycles i.opcode) ∈ line)

/-- `i` is one of the 151 documented instructions (R106). -/
def Documented (i : Instr) : Prop := i.mnemonic ≠ .unimplemented

/-- The stack byte at a stack pointer's value, `0x0100 + SP` (R22), as a number. -/
def stackByte (sp : Byte) : Word := BitVec.ofNat 16 (256 + sp.toNat)

/-- Two addresses of RAM name one byte: they agree in the low 11 bits (R53). -/
def SameRamByte (a b : Word) : Prop := a.toNat < 0x2000 ∧ b.toNat < 0x2000 ∧ a.toNat % 0x800 = b.toNat % 0x800

/-- The bytes at an address, in increasing address order modulo 65536. -/
def bytesAt (m : Memory) (addr : Word) (n : Nat) : List Byte :=
  (List.range n).map fun k => busRead m (addr + BitVec.ofNat 16 k)

/-- The sum of ADC (R160) and its flags: C by the unsigned sum, V by the signed sum (R166). -/
def adcResult (a m : Byte) (c : Bool) : Byte := BitVec.ofNat 8 (a.toNat + m.toNat + c.toNat)

def adcFlags (a m : Byte) (p : Flags) : Flags :=
  let signed : Int := a.toInt + m.toInt + p.c.toNat
  nz (adcResult a m p.c)
    { p with c := decide (255 < a.toNat + m.toNat + p.c.toNat), v := decide (signed < -128 ∨ 127 < signed) }

/-- The difference of SBC (R161): A - M - (1 - C), and its flags: C = 1 for no borrow, V by the signed difference (R166). -/
def sbcResult (a m : Byte) (c : Bool) : Byte := BitVec.ofInt 8 ((a.toNat : Int) - m.toNat - (1 - c.toNat))

def sbcFlags (a m : Byte) (p : Flags) : Flags :=
  let signed : Int := a.toInt - m.toInt - (1 - p.c.toNat)
  nz (sbcResult a m p.c)
    { p with c := decide (m.toNat + (1 - p.c.toNat) ≤ a.toNat), v := decide (signed < -128 ∨ 127 < signed) }

/-- The flags of a compare (R162): C from the unsigned order, N and Z from the difference modulo 256. -/
def cmpFlags (r m : Byte) (p : Flags) : Flags :=
  nz (BitVec.ofNat 8 (r.toNat + 256 - m.toNat)) { p with c := decide (m.toNat ≤ r.toNat) }

/-- The state after the one write of a read-modify-write instruction (R136): A in ACC mode, else the byte at operand_address. -/
def modified (i : Instr) (s : State) (r : Byte) : State :=
  if i.operand.mode = .acc then { after i s with a := r }
  else { after i s with mem := busWrite s.mem (after i s).operandAddress r }

/-- The state a shift or rotate leaves: result `r`, carry out `c` (R170 to R173). -/
def shifted (i : Instr) (s : State) (r : Byte) (c : Bool) : State :=
  { modified i s r with p := nz r { s.p with c := c }, remainingCycles := baseCycles i.opcode }

/-- The state a branch leaves (R180): 2 cycles not taken, 3 taken, 4 taken to another page. -/
def branched (taken : Bool) (disp : Byte) (s : State) : State :=
  let next : Word := s.pc + 2
  let target : Word := BitVec.ofInt 16 (next.toNat + disp.toInt)
  { s with
    relativeOffset := BitVec.ofInt 16 disp.toInt
    pc := if taken = true then target else next
    remainingCycles :=
      if taken = true then (if target.toNat / 256 = next.toNat / 256 then 3 else 4) else 2 }

/-- The memory after interrupt entry's three pushes at a PC (R262), with status bit 4 = `b`. -/
def entryMemory (b : Bool) (pc : Word) (s : State) : Memory :=
  busWrite
    (busWrite (busWrite s.mem (stackByte s.sp) (BitVec.ofNat 8 (pc.toNat / 256))) (stackByte (s.sp - 1)) (BitVec.ofNat 8 pc.toNat))
    (stackByte (s.sp - 2)) (BitVec.ofNat 8 ((pRead s.p).toNat + 16 * b.toNat))

/-- The state interrupt entry leaves (R262): the vector read from the memory before the pushes, which change only RAM. -/
def entered (vector : Word) (b : Bool) (pc : Word) (s : State) : State :=
  { s with
    sp := s.sp - 3
    mem := entryMemory b pc s
    p := { s.p with i := true }
    pc := w16 (busRead s.mem vector) (busRead s.mem (vector + 1)) }

/-- The condition each branch mnemonic tests (R181 to R188). -/
def branchTaken (m : Mnemonic) (p : Flags) : Bool :=
  (m = .bcc && !p.c) || (m = .bcs && p.c) || (m = .beq && p.z) || (m = .bmi && p.n) ||
  (m = .bne && !p.z) || (m = .bpl && !p.n) || (m = .bvc && !p.v) || (m = .bvs && p.v)

/-- The branch's extra cycles, `br` (R132, R180). -/
def branchCycles (i : Instr) (s : State) : Nat :=
  if branchTaken i.mnemonic s.p = true then
    (if ((after i s).pc + (after i s).relativeOffset).toNat / 256 = (after i s).pc.toNat / 256 then 1 else 2)
  else 0

/-- The penalty-capable mnemonics (R137). -/
def penaltyCapable : List Mnemonic := [.adc, .and, .cmp, .eor, .lda, .ldx, .ldy, .ora, .sbc]

/-- The mnemonics whose memory form stores to operand_address: the stores and the read-modify-writes. -/
def storing : List Mnemonic := [.sta, .stx, .sty, .asl, .lsr, .rol, .ror, .inc, .dec]

/-- The mnemonics that push. -/
def pushing : List Mnemonic := [.pha, .php, .jsr, .brk]

end Sys2Proof.Spec

open Sys2Proof Sys2Proof.Machine Sys2Proof.Spec

/-! ### The status register (10_state.md) -/

/-- R25: P_read() as a number, the bytes PHP and interrupt entry push, and the flags a pulled byte loads. -/
def Obligations.StatusByteHasBitFiveSetAndNoB : Prop :=
  ∀ (p : Flags) (b : Bool) (v : Byte),
    (pRead p).toNat =
      128 * p.n.toNat + 64 * p.v.toNat + 32 + 8 * p.d.toNat + 4 * p.i.toNat + 2 * p.z.toNat + p.c.toNat ∧
    (phpStatus p).toNat = (pRead p).toNat + 16 ∧
    (entryStatus b p).toNat = (pRead p).toNat + 16 * b.toNat ∧
    Flags.ofByte (pRead p) = p ∧
    (pRead (Flags.ofByte v)).toNat = (v &&& 0xCF).toNat + 32

/-- R26, R27: setNZ sets and clears N and Z by the value, and no other flag. GetFlag reads one bit of P_read(), B as 0 and bit
5 as 1; SetFlag writes one stored flag, and nothing for B and bit 5. -/
def Obligations.SetNZAndFlagAccess : Prop :=
  (∀ (v : Byte) (p : Flags), setNZ v p = nz v p) ∧
  ∀ (p : Flags) (v : Bool) (f g : FlagName),
    getFlag .b p = false ∧ getFlag .u p = true ∧ setFlag .b v p = p ∧ setFlag .u v p = p ∧
    getFlag f p = (pRead p).getLsbD f.bit ∧
    (f ≠ .b → f ≠ .u → getFlag f (setFlag f v p) = v) ∧
    (f ≠ g → getFlag g (setFlag f v p) = getFlag g p)

/-! ### Stack primitives (10_state.md R22, R30, R31) -/

/-- R30 and R31: Push writes at 0x0100 + SP and then decrements SP; Pull increments SP and then reads there; both wrap modulo
256; nothing else changes. -/
def Obligations.PushAndPullUseTheStackPage : Prop :=
  ∀ (s : State) (v : Byte),
    push v s = { s with mem := busWrite s.mem (stackByte s.sp) v, sp := BitVec.ofNat 8 (s.sp.toNat + 255) } ∧
    pullState s = { s with sp := BitVec.ofNat 8 (s.sp.toNat + 1) } ∧
    pullByte s = busRead s.mem (stackByte (BitVec.ofNat 8 (s.sp.toNat + 1)))

/-! ### Bus, Cartridge and mapper (20_memory.md) -/

/-- R52, R54, R55, R57: what a Bus read returns and what a Bus write does, for every address. -/
def Obligations.BusRoutesEveryAddress : Prop :=
  ∀ (m : Memory) (a : Word) (v : Byte),
    (a.toNat < 0x2000 →
      busRead m a = cellRead m.ram (a.toNat % 0x800) ∧
      busWrite m a v = { m with ram := cellWrite m.ram (a.toNat % 0x800) v }) ∧
    (0x2000 ≤ a.toNat → busWrite m a v = m) ∧
    (0x2000 ≤ a.toNat → a.toNat < 0x8000 → busRead m a = 0x00) ∧
    (0x8000 ≤ a.toNat →
      busRead m a =
        cellRead m.prg (match m.prgSize with
          | .kb16 => (a.toNat - 0x8000) % 0x4000
          | .kb32 => a.toNat - 0x8000))

/-- R53: RAM is mirrored every 0x0800 bytes; a write is seen at all mirrors of its byte and nowhere else. -/
def Obligations.RamIsMirroredEvery2048Bytes : Prop :=
  ∀ (m : Memory) (a b : Word) (v : Byte), a.toNat < 0x2000 →
    busRead m a = busRead m (a &&& 0x07FF) ∧
    (SameRamByte a b → busRead (busWrite m a v) b = v) ∧
    (¬ SameRamByte a b → busRead (busWrite m a v) b = busRead m b)

/-- R58: NROM's translation, and the mirror of a 16 KB PRG-ROM. -/
def Obligations.NromMapsThePrgWindow : Prop :=
  ∀ (m : Memory) (a : Word),
    (a.toNat < 0x8000 → mapCpuAddress m.prgSize a = none) ∧
    (0x8000 ≤ a.toNat →
      mapCpuAddress .kb32 a = some (a.toNat - 0x8000) ∧
      mapCpuAddress .kb16 a = some ((a.toNat - 0x8000) % 16384) ∧
      (m.prgSize = .kb16 → busRead m a = busRead m (a &&& 0xBFFF)))

/-- R65: the three vectors, read through the Bus, are PRG bytes 0x3FFA to 0x3FFF of a 16 KB and 0x7FFA to 0x7FFF of a 32 KB
cartridge, little-endian; no call of the host changes them. -/
def Obligations.VectorsAreTheLastPrgBytes : Prop :=
  ∀ (s : State),
    let base := match s.mem.prgSize with
      | .kb16 => 0x3FFA
      | .kb32 => 0x7FFA
    nmiVector = 0xFFFA ∧ resetVector = 0xFFFC ∧ irqVector = 0xFFFE ∧
    memRead16 s nmiVector = w16 (cellRead s.mem.prg base) (cellRead s.mem.prg (base + 1)) ∧
    memRead16 s resetVector = w16 (cellRead s.mem.prg (base + 2)) (cellRead s.mem.prg (base + 3)) ∧
    memRead16 s irqVector = w16 (cellRead s.mem.prg (base + 4)) (cellRead s.mem.prg (base + 5)) ∧
    ∀ (call : HostCall) (t : State), hostCall call s = .next t →
      ∀ vector ∈ [nmiVector, resetVector, irqVector], memRead16 t vector = memRead16 s vector

/-- R59: no call of the host changes PRG-ROM, neither its size nor a byte. -/
def Obligations.NoCallChangesPrgRom : Prop :=
  ∀ (call : HostCall) (s t : State), hostCall call s = .next t →
    t.mem.prg = s.mem.prg ∧ t.mem.prgSize = s.mem.prgSize

/-- R60, R61, R279: `create_bus` on a file that cannot be read is RomReadError; on an image whose header is `b4 b5 b6 b7` it
builds exactly the NROM images of 16 or 32 KB whose data is long enough, skips the trainer, and leaves a block that has not
been reset, with PRG-ROM reading the image's bytes. Three clauses are the model's choices, of no rule cited: an image shorter
than its header is UnsupportedRom (log 12), data after the header's sizes is ignored (log 12), and RAM reads 0x00 everywhere
(log 2: the default of the parameter RAM_INIT). -/
def Obligations.CreateBusAdmitsOnlyNrom : Prop :=
  createBus none = .error .romReadError ∧
  (∀ image : List Byte, image.length < 16 → createBus (some image) = .error .unsupportedRom) ∧
  ∀ (b0 b1 b2 b3 b4 b5 b6 b7 c0 c1 c2 c3 c4 c5 c6 c7 : Byte) (data : List Byte),
    let image := [b0, b1, b2, b3, b4, b5, b6, b7] ++ [c0, c1, c2, c3, c4, c5, c6, c7] ++ data
    let skip := if b6.getLsbD 2 = true then 512 else 0
    let admitted := (b4 = 1 ∨ b4 = 2) ∧ (b7 &&& 0x0C) ≠ 0x08 ∧ b7.getLsbD 0 = false ∧ (b7 &&& 0xF0) = 0 ∧
      (b6 &&& 0xF0) = 0 ∧ skip + 16384 * b4.toNat + 8192 * b5.toNat ≤ data.length
    (¬ admitted → createBus (some image) = .error .unsupportedRom) ∧
    (admitted → ∃ s, createBus (some image) = .ok s ∧ s.resetDone = false ∧ s.halted = none ∧ s.mem.wf = true ∧
      s.mem.prgSize = (if b4 = 1 then .kb16 else .kb32) ∧
      (∀ a : Word, a.toNat < 0x2000 → busRead s.mem a = 0x00) ∧
      (∀ k, k < 16384 * b4.toNat → cellRead s.mem.prg k = data.getD (skip + k) 0))

/-! ### Encoding (30_encoding.md) -/

/-- Decode and encode agree: decoding the encoding of a well-formed instruction gives it back, with every operand. -/
def Obligations.DecodeInvertsEncode : Prop :=
  ∀ (i : Instr) (rest : List Byte), i.wf = true → decode (encode i ++ rest) = .ok (i, rest)

/-- Every instruction the decoder reads is well-formed and encodes to the bytes it was read from. -/
def Obligations.EncodeInvertsDecode : Prop :=
  ∀ (bytes rest : List Byte) (i : Instr), decode bytes = .ok (i, rest) → i.wf = true ∧ encode i ++ rest = bytes

/-- The bytes of the worked examples of 95_test_vectors.md decode to the instructions they stand for. -/
def Obligations.ExampleBytesDecode : Prop :=
  decode [0xA9, 0x05] = .ok (.ldaImm 0x05, []) ∧
  decode [0x8D, 0x00, 0x02] = .ok (.staAbs 0x0200, []) ∧
  decode [0x6C, 0xFF, 0x02] = .ok (.jmpInd 0x02FF, []) ∧
  decode [0x20, 0x34, 0x12] = .ok (.jsr 0x1234, []) ∧
  decode [0xD0, 0xFB] = .ok (.bne 0xFB, []) ∧
  decode [0xB1, 0x40] = .ok (.ldaIzy 0x40, []) ∧
  decode [0x96, 0x01] = .ok (.stxZpy 0x01, []) ∧
  decode [0x0A] = .ok (.aslAcc, []) ∧
  decode [0x00, 0xFF] = .ok (.brk, [0xFF])

/-- R107: exactly the 105 listed bytes are illegal; each decodes to the fatal entry, and the other 151 to documented
instructions. -/
def Obligations.IllegalBytesAreTheListed105 : Prop :=
  illegalOpcodes.length = 105 ∧ illegalOpcodes.Nodup ∧
  ∀ (op b1 b2 : Byte),
    ∃ i rest, decode [op, b1, b2] = .ok (i, rest) ∧
      (op ∈ illegalOpcodes → i = .unimplemented op ∧ rest = [b1, b2]) ∧
      (op ∉ illegalOpcodes → Documented i ∧ i.opcode = op)

/-- R90, R91, R111: an instruction is as long as its mode says; that is the size the disassembler returns, and for every
instruction the number of bytes its resolver has consumed. The opcode byte alone gives the mode. Of the 105 illegal bytes the
rules give no mode and no disassembler's size: that `Instr.unimplemented` has mode IMP, and so size 1, is the model's choice
(log 15). -/
def Obligations.LengthFollowsTheMode : Prop :=
  (∀ i : Instr, (encode i).length = i.size ∧ i.size = i.operand.mode.size) ∧
  (∀ m : Mode, m.size =
    if m = .imp ∨ m = .acc then 1 else if m = .abs ∨ m = .abx ∨ m = .aby ∨ m = .ind then 3 else 2) ∧
  (∀ i j : Instr, i.wf = true → j.wf = true → i.opcode = j.opcode → i.operand.mode = j.operand.mode) ∧
  (∀ (i : Instr) (s : State), (after i s).pc = s.pc + BitVec.ofNat 16 i.size) ∧
  (∀ (m : Memory) (a : Word) (i : Instr) (rest : List Byte),
    decode (bytesAt m a 3) = .ok (i, rest) → disassembleSize m a = i.size)

/-! ### Resolvers (30_encoding.md R93 to R105) -/

/-- R94 to R101, R103 to R105: what each resolver leaves in PC, operand_address and relative_offset, and the Boolean it
returns. `s.pc` is the address of the byte after the opcode. The sums are numbers modulo 256 or 65536. -/
def Obligations.ResolversSetPcAndAddress : Prop :=
  ∀ (s : State) (b : Byte) (w : Word),
    let zp (n : Nat) : Byte := busRead s.mem (BitVec.ofNat 16 (n % 256))
    let ptr (n : Nat) : Nat := (zp n).toNat + 256 * (zp (n + 1)).toNat
    (resolve .imp s = s ∧ pageCross .imp s = false) ∧
    (resolve .acc s = s ∧ pageCross .acc s = false) ∧
    (resolve (.imm b) s = { s with pc := s.pc + 1, operandAddress := s.pc } ∧ pageCross (.imm b) s = false) ∧
    (resolve (.zp0 b) s = { s with pc := s.pc + 1, operandAddress := BitVec.ofNat 16 b.toNat } ∧ pageCross (.zp0 b) s = false) ∧
    (resolve (.zpx b) s = { s with pc := s.pc + 1, operandAddress := BitVec.ofNat 16 ((b.toNat + s.x.toNat) % 256) } ∧
      pageCross (.zpx b) s = false) ∧
    (resolve (.zpy b) s = { s with pc := s.pc + 1, operandAddress := BitVec.ofNat 16 ((b.toNat + s.y.toNat) % 256) } ∧
      pageCross (.zpy b) s = false) ∧
    (resolve (.abs w) s = { s with pc := s.pc + 2, operandAddress := w } ∧ pageCross (.abs w) s = false) ∧
    (resolve (.abx w) s = { s with pc := s.pc + 2, operandAddress := BitVec.ofNat 16 (w.toNat + s.x.toNat) } ∧
      pageCross (.abx w) s = decide (0xFF < w.toNat % 256 + s.x.toNat)) ∧
    (resolve (.aby w) s = { s with pc := s.pc + 2, operandAddress := BitVec.ofNat 16 (w.toNat + s.y.toNat) } ∧
      pageCross (.aby w) s = decide (0xFF < w.toNat % 256 + s.y.toNat)) ∧
    (resolve (.izx b) s = { s with pc := s.pc + 1, operandAddress := BitVec.ofNat 16 (ptr (b.toNat + s.x.toNat)) } ∧
      pageCross (.izx b) s = false) ∧
    (resolve (.izy b) s = { s with pc := s.pc + 1, operandAddress := BitVec.ofNat 16 (ptr b.toNat + s.y.toNat) } ∧
      pageCross (.izy b) s = decide (0xFF < ptr b.toNat % 256 + s.y.toNat)) ∧
    (resolve (.rel b) s = { s with pc := s.pc + 1, relativeOffset := BitVec.ofInt 16 b.toInt } ∧ pageCross (.rel b) s = false)

/-- R102: the JMP indirect pointer whose low byte is 0xFF takes its high byte from the start of its own page. -/
def Obligations.IndirectPointerWrapsInItsPage : Prop :=
  ∀ (s : State) (w : Word),
    let high : Word := if w.toNat % 256 = 255 then BitVec.ofNat 16 (w.toNat - 255) else BitVec.ofNat 16 (w.toNat + 1)
    resolve (.ind w) s =
      { s with
        pc := s.pc + 2
        operandAddress := BitVec.ofNat 16 ((busRead s.mem w).toNat + 256 * (busRead s.mem high).toNat) } ∧
    pageCross (.ind w) s = false

/-- R100, R101, R104 with the glossary's page crossing (R16): a resolver reports a page cross exactly when the high byte of the
effective address differs from the high byte of the base; so a wrap from 0xFFxx to 0x00xx counts. -/
def Obligations.PageCrossMeansTheHighByteChanges : Prop :=
  ∀ (s : State) (w : Word) (b : Byte),
    (pageCross (.abx w) s = true ↔ hi (w + zext16 s.x) ≠ hi w) ∧
    (pageCross (.aby w) s = true ↔ hi (w + zext16 s.y) ≠ hi w) ∧
    (pageCross (.izy b) s = true ↔ hi (zeroPagePointer s b + zext16 s.y) ≠ hi (zeroPagePointer s b))

/-- R135, R136: `Operand()` and `WriteBack(v)`. For IMM, the operand of an instruction fetched from memory is the byte at
operand_address. -/
def Obligations.OperandPrimitives : Prop :=
  (∀ (s : State) (v : Byte), operandValue .acc s = s.a ∧ writeBack .acc v s = { s with a := v }) ∧
  (∀ (s : State) (v : Byte) (o : Operand), o.mode ≠ .acc →
    writeBack o v s = { s with mem := busWrite s.mem s.operandAddress v }) ∧
  (∀ (s : State) (o : Operand), o.mode ≠ .acc → o.mode ≠ .imm → operandValue o s = busRead s.mem s.operandAddress) ∧
  (∀ (s : State), (instrAt s.mem s.pc).operand.mode = .imm →
    operandM (instrAt s.mem s.pc) s = busRead s.mem (after (instrAt s.mem s.pc) s).operandAddress)

/-! ### The engine (40_engine.md) -/

/-- R130, R134: when the bytes at PC decode to an instruction, the next step of a block at a fetch cycle runs it, whole, and
then counts remaining_cycles down by one. That a step with an empty script is `clock()`, and that a call in the script is
served instead and taken off it, is the model's choice (log 5) and no rule of the spec. -/
def Obligations.StepRunsTheDecodedInstruction : Prop :=
  (∀ (s : State) (n : Nat) (i : Instr) (rest : List Byte),
    AtFetch s → decode (bytesAt s.mem s.pc n) = .ok (i, rest) →
    step s = match exec i s with
      | .next t => .next { t with remainingCycles := t.remainingCycles - 1 }
      | .fault f => .fault f
      | .refused r => .refused r) ∧
  (∀ (s : State) (call : HostCall) (calls : List HostCall), s.hostCalls = call :: calls →
    step s = hostCall call { s with hostCalls := calls })

/-- R133: a `clock()` that finds remaining_cycles > 0 only decrements it, so `n` cycles run down in `n` steps
of a block with an empty script (that such a step is `clock()` is the model's choice, log 5). -/
def Obligations.CountdownOnlyDecrements : Prop :=
  ∀ (s : State) (n : Nat), Running s →
    (0 < s.remainingCycles →
      hostCall .clock s = .next { s with remainingCycles := s.remainingCycles - 1 }) ∧
    (s.hostCalls = [] →
      Host.Core.run core n { s with remainingCycles := n } = .next { s with remainingCycles := 0 })

/-- R133, R134: an instruction of duration T takes T consecutive `clock()` calls; all of its effects are there after the first,
and the calls after it only count down. The calls are steps with an empty script (the model's choice, log 5). -/
def Obligations.InstructionTakesItsDurationInClocks : Prop :=
  ∀ (s t : State), AtFetch s → exec (instrAt s.mem s.pc) s = .next t →
    1 ≤ t.remainingCycles ∧
    ∀ k, 1 ≤ k → k ≤ t.remainingCycles →
      Host.Core.run core k s = .next { t with remainingCycles := t.remainingCycles - k }

/-- R132, R137: every documented instruction completes, and its duration is its base cycles, plus one for a page cross of a
penalty-capable instruction, plus the branch's own cycles. -/
def Obligations.EveryInstructionHasItsDuration : Prop :=
  ∀ (i : Instr) (s : State), Documented i →
    ∃ t, exec i s = .next t ∧
      t.remainingCycles =
        baseCycles i.opcode + (if i.mnemonic ∈ penaltyCapable ∧ crosses i s = true then 1 else 0) + branchCycles i s

/-- R306: nothing an instruction does depends on remaining_cycles. -/
def Obligations.EffectsDoNotDependOnTiming : Prop :=
  ∀ (i : Instr) (s : State) (n : Nat), exec i { s with remainingCycles := n } = exec i s

/-- R138: the fetch of an unimplemented opcode raises UnimplementedOpcode with the opcode byte and its address. The state it
leaves is halted with that record, with PC past the opcode and nothing else changed, and no call has a step from it. -/
def Obligations.UnimplementedOpcodeHalts : Prop :=
  (∀ (op : Byte) (s : State), exec (.unimplemented op) s = .fault (.unimplementedOpcode op s.pc)) ∧
  (∀ (s : State), Running s → s.remainingCycles = 0 → busRead s.mem s.pc ∈ illegalOpcodes →
    hostCall .clock s = .fault (.unimplementedOpcode (busRead s.mem s.pc) s.pc) ∧
    ∃ t, stateAfter .clock s = some t ∧
      t = { s with pc := s.pc + 1, halted := some { opcode := busRead s.mem s.pc, address := s.pc } } ∧
      ∀ call, hostCall call t = .refused .haltedBlock)

/-- R140: the calls that are refused: a CPU call when halted, and `clock()`, `irq()`, `nmi()` or a getter before the first
reset. -/
def Obligations.RefusedCalls : Prop :=
  ∀ (s : State) (g : Getter),
    (s.halted ≠ none →
      ∀ call ∈ [HostCall.reset, .clock, .irq, .nmi, .getter g], hostCall call s = .refused .haltedBlock) ∧
    (s.halted = none → s.resetDone = false →
      ∀ call ∈ [HostCall.clock, .irq, .nmi, .getter g], hostCall call s = .refused .beforeReset)

/-- R138, R261: the only fault is the fetch of an illegal byte. A step of a running block answers a next state, or it is a
fetch cycle, at the empty script (log 5) or a scripted `clock()`, that reads an illegal byte at PC; it is never refused. -/
def Obligations.OnlyIllegalBytesStopARunningBlock : Prop :=
  ∀ (s : State), Running s →
    (∃ t, step s = .next t) ∨
    (step s = .fault (.unimplementedOpcode (busRead s.mem s.pc) s.pc) ∧ s.remainingCycles = 0 ∧
      busRead s.mem s.pc ∈ illegalOpcodes ∧ s.hostCalls.headD .clock = .clock)

/-- R71: a fetch from an address that reads 0x00, so from every address of 0x2000 to 0x7FFF, is BRK; a byte written to RAM is
what the next fetch there reads. -/
def Obligations.FetchReadsTheBus : Prop :=
  (∀ (m : Memory) (a : Word), 0x2000 ≤ a.toNat → a.toNat < 0x8000 → instrAt m a = .brk) ∧
  (∀ (m : Memory) (a : Word) (op : Byte), a.toNat < 0x2000 →
    (instrAt (busWrite m a op) a).opcode = op)

/-! ### Arithmetic (41_arithmetic.md) -/

/-- R160: ADC, in all its forms. -/
def Obligations.AdcResult : Prop :=
  EncodingIs .adc
      [(0x69, .imm, 2), (0x65, .zp0, 3), (0x75, .zpx, 4), (0x6D, .abs, 4), (0x7D, .abx, 4), (0x79, .aby, 4),
       (0x61, .izx, 6), (0x71, .izy, 5)] ∧
  ∀ (i : Instr) (s : State), i.mnemonic = .adc →
    exec i s = .next
      { after i s with
        a := adcResult s.a (operandM i s) s.p.c
        p := adcFlags s.a (operandM i s) s.p
        remainingCycles := cycles i s true }

/-- R161: SBC, in all its forms. -/
def Obligations.SbcResult : Prop :=
  EncodingIs .sbc
      [(0xE9, .imm, 2), (0xE5, .zp0, 3), (0xF5, .zpx, 4), (0xED, .abs, 4), (0xFD, .abx, 4), (0xF9, .aby, 4),
       (0xE1, .izx, 6), (0xF1, .izy, 5)] ∧
  ∀ (i : Instr) (s : State), i.mnemonic = .sbc →
    exec i s = .next
      { after i s with
        a := sbcResult s.a (operandM i s) s.p.c
        p := sbcFlags s.a (operandM i s) s.p
        remainingCycles := cycles i s true }

/-- R162, R163, R164: CMP, CPX and CPY, in all their forms. The register is not changed. -/
def Obligations.CompareResults : Prop :=
  EncodingIs .cmp
      [(0xC9, .imm, 2), (0xC5, .zp0, 3), (0xD5, .zpx, 4), (0xCD, .abs, 4), (0xDD, .abx, 4), (0xD9, .aby, 4),
       (0xC1, .izx, 6), (0xD1, .izy, 5)] ∧
  EncodingIs .cpx
      [(0xE0, .imm, 2), (0xE4, .zp0, 3), (0xEC, .abs, 4)] ∧
  EncodingIs .cpy
      [(0xC0, .imm, 2), (0xC4, .zp0, 3), (0xCC, .abs, 4)] ∧
  ∀ (i : Instr) (s : State),
    (i.mnemonic = .cmp → exec i s = .next
      { after i s with p := cmpFlags s.a (operandM i s) s.p, remainingCycles := cycles i s true }) ∧
    (i.mnemonic = .cpx → exec i s = .next
      { after i s with p := cmpFlags s.x (operandM i s) s.p, remainingCycles := cycles i s false }) ∧
    (i.mnemonic = .cpy → exec i s = .next
      { after i s with p := cmpFlags s.y (operandM i s) s.p, remainingCycles := cycles i s false })

/-- R165: the D flag has no effect. Every documented instruction but those that write or push D (CLD, SED, PLP, RTI, PHP, BRK)
does the same whatever D holds, and leaves D as it was. -/
def Obligations.DecimalFlagHasNoEffect : Prop :=
  ∀ (i : Instr) (s : State) (d : Bool), Documented i → i.mnemonic ∉ [Mnemonic.cld, .sed, .plp, .rti, .php, .brk] →
    ∃ t, exec i s = .next t ∧ t.p.d = s.p.d ∧
      exec i { s with p := { s.p with d := d } } = .next { t with p := { t.p with d := d } }

/-- R166 (5): ADC, then SBC of the same operand with carry-in 1 - c, restores A, for any forms of the two. -/
def Obligations.SbcUndoesAdc : Prop :=
  ∀ (i j : Instr) (s : State), i.mnemonic = .adc → j.mnemonic = .sbc →
    ∃ t, exec i s = .next t ∧
      ∀ t' : State, t'.a = t.a → t'.p.c = !s.p.c → operandM j t' = operandM i s →
        ∃ u, exec j t' = .next u ∧ u.a = s.a

/-! ### Shifts and rotates (42_shift_rotate.md) -/

/-- R170 to R173: ASL, LSR, ROL and ROR, on A and on memory: C is the bit shifted out, the rotates feed the previous C into the
vacated bit, N and Z come from the result. -/
def Obligations.ShiftAndRotateResults : Prop :=
  EncodingIs .asl
      [(0x0A, .acc, 2), (0x06, .zp0, 5), (0x16, .zpx, 6), (0x0E, .abs, 6), (0x1E, .abx, 7)] ∧
  EncodingIs .lsr
      [(0x4A, .acc, 2), (0x46, .zp0, 5), (0x56, .zpx, 6), (0x4E, .abs, 6), (0x5E, .abx, 7)] ∧
  EncodingIs .rol
      [(0x2A, .acc, 2), (0x26, .zp0, 5), (0x36, .zpx, 6), (0x2E, .abs, 6), (0x3E, .abx, 7)] ∧
  EncodingIs .ror
      [(0x6A, .acc, 2), (0x66, .zp0, 5), (0x76, .zpx, 6), (0x6E, .abs, 6), (0x7E, .abx, 7)] ∧
  ∀ (i : Instr) (s : State),
    let m := (operandM i s).toNat
    (i.mnemonic = .asl → exec i s = .next (shifted i s (BitVec.ofNat 8 (2 * m)) (decide (128 ≤ m)))) ∧
    (i.mnemonic = .lsr → exec i s = .next (shifted i s (BitVec.ofNat 8 (m / 2)) (decide (m % 2 = 1)))) ∧
    (i.mnemonic = .rol →
      exec i s = .next (shifted i s (BitVec.ofNat 8 (2 * m + s.p.c.toNat)) (decide (128 ≤ m)))) ∧
    (i.mnemonic = .ror →
      exec i s = .next (shifted i s (BitVec.ofNat 8 (128 * s.p.c.toNat + m / 2)) (decide (m % 2 = 1))))

/-! ### Branches (43_branch.md) -/

/-- R180 to R188: the eight branches: the flag each tests, the target modulo 65536, and the cycles. -/
def Obligations.BranchResults : Prop :=
  EncodingIs .bcc
      [(0x90, .rel, 2)] ∧
  EncodingIs .bcs
      [(0xB0, .rel, 2)] ∧
  EncodingIs .beq
      [(0xF0, .rel, 2)] ∧
  EncodingIs .bmi
      [(0x30, .rel, 2)] ∧
  EncodingIs .bne
      [(0xD0, .rel, 2)] ∧
  EncodingIs .bpl
      [(0x10, .rel, 2)] ∧
  EncodingIs .bvc
      [(0x50, .rel, 2)] ∧
  EncodingIs .bvs
      [(0x70, .rel, 2)] ∧
  ∀ (disp : Byte) (s : State),
    exec (.bcc disp) s = .next (branched (!s.p.c) disp s) ∧
    exec (.bcs disp) s = .next (branched s.p.c disp s) ∧
    exec (.beq disp) s = .next (branched s.p.z disp s) ∧
    exec (.bmi disp) s = .next (branched s.p.n disp s) ∧
    exec (.bne disp) s = .next (branched (!s.p.z) disp s) ∧
    exec (.bpl disp) s = .next (branched (!s.p.n) disp s) ∧
    exec (.bvc disp) s = .next (branched (!s.p.v) disp s) ∧
    exec (.bvs disp) s = .next (branched s.p.v disp s)

/-! ### Jumps, subroutines, BRK and RTI (44_jump_subroutine.md) -/

/-- R190: JMP in both forms. -/
def Obligations.JumpResults : Prop :=
  EncodingIs .jmp
      [(0x4C, .abs, 3), (0x6C, .ind, 5)] ∧
  ∀ (s : State) (w : Word),
    exec (.jmpAbs w) s = .next { s with pc := w, operandAddress := w, remainingCycles := 3 } ∧
    exec (.jmpInd w) s = .next
      { s with
        pc := (after (.jmpInd w) s).operandAddress
        operandAddress := (after (.jmpInd w) s).operandAddress
        remainingCycles := 5 }

/-- R191, R192: JSR pushes the address of its last byte, high byte first, and jumps; RTS pulls low, then high, and goes to that
address plus 1. -/
def Obligations.SubroutineResults : Prop :=
  EncodingIs .jsr
      [(0x20, .abs, 6)] ∧
  EncodingIs .rts
      [(0x60, .imp, 6)] ∧
  ∀ (s : State) (w : Word),
    exec (.jsr w) s = .next
      { s with
        mem := busWrite (busWrite s.mem (stackByte s.sp) (hi (s.pc + 2))) (stackByte (s.sp - 1)) (lo (s.pc + 2))
        sp := s.sp - 2
        pc := w
        operandAddress := w
        remainingCycles := 6 } ∧
    exec .rts s = .next
      { s with
        sp := s.sp + 2
        pc := w16 (busRead s.mem (stackByte (s.sp + 1))) (busRead s.mem (stackByte (s.sp + 2))) + 1
        remainingCycles := 6 }

/-- R193, R194: BRK takes the software interrupt: the address of the opcode plus 2 and the status with B = 1 pushed, I set, PC
from the IRQ/BRK vector, whatever I holds. RTI pulls the status, then PC low, then PC high. -/
def Obligations.BrkAndRtiResults : Prop :=
  EncodingIs .brk
      [(0x00, .imp, 7)] ∧
  EncodingIs .rti
      [(0x40, .imp, 6)] ∧
  ∀ (s : State),
    exec .brk s = .next { entered 0xFFFE true (s.pc + 2) s with remainingCycles := 7 } ∧
    exec .rti s = .next
      { s with
        p := Flags.ofByte (busRead s.mem (stackByte (s.sp + 1)))
        pc := w16 (busRead s.mem (stackByte (s.sp + 2))) (busRead s.mem (stackByte (s.sp + 3)))
        sp := s.sp + 3
        remainingCycles := 6 }

/-- R192: RTS undoes JSR: it returns to the instruction after it with SP restored, at every SP. -/
def Obligations.RtsUndoesJsr : Prop :=
  ∀ (s : State) (w : Word),
    ∃ t u, exec (.jsr w) s = .next t ∧ exec .rts t = .next u ∧
      u = { s with pc := s.pc + 3, operandAddress := w, mem := t.mem, remainingCycles := 6 }

/-- R269, R194: RTI undoes an interrupt entry: PC, the six flags (I among them) and SP are as before, at every SP, for BRK and
for a taken `irq()` and `nmi()`. -/
def Obligations.RtiUndoesInterruptEntry : Prop :=
  ∀ (s : State),
    (∃ t u, exec .brk s = .next t ∧ exec .rti t = .next u ∧
      u = { s with pc := s.pc + 2, mem := t.mem, remainingCycles := 6 }) ∧
    (∃ u, exec .rti (cpuNmi s) = .next u ∧ u = { s with mem := (cpuNmi s).mem, remainingCycles := 6 }) ∧
    (s.p.i = false →
      ∃ u, exec .rti (cpuIrq s) = .next u ∧ u = { s with mem := (cpuIrq s).mem, remainingCycles := 6 })

/-! ### Stack instructions (45_stack.md) -/

/-- R201 to R204: PHA, PHP, PLA and PLP. -/
def Obligations.StackResults : Prop :=
  EncodingIs .pha
      [(0x48, .imp, 3)] ∧
  EncodingIs .php
      [(0x08, .imp, 3)] ∧
  EncodingIs .pla
      [(0x68, .imp, 4)] ∧
  EncodingIs .plp
      [(0x28, .imp, 4)] ∧
  ∀ (s : State),
    let pulled := busRead s.mem (stackByte (s.sp + 1))
    exec .pha s = .next
      { s with pc := s.pc + 1, mem := busWrite s.mem (stackByte s.sp) s.a, sp := s.sp - 1, remainingCycles := 3 } ∧
    exec .php s = .next
      { s with
        pc := s.pc + 1
        mem := busWrite s.mem (stackByte s.sp) (pRead s.p ||| 0x30)
        sp := s.sp - 1
        remainingCycles := 3 } ∧
    exec .pla s = .next
      { s with pc := s.pc + 1, a := pulled, p := nz pulled s.p, sp := s.sp + 1, remainingCycles := 4 } ∧
    exec .plp s = .next
      { s with
        pc := s.pc + 1
        p := { n := pulled.getLsbD 7, v := pulled.getLsbD 6, d := pulled.getLsbD 3, i := pulled.getLsbD 2,
               z := pulled.getLsbD 1, c := pulled.getLsbD 0 }
        sp := s.sp + 1
        remainingCycles := 4 }

/-- R202, R204, R201, R203: PLP undoes PHP and PLA undoes PHA, at every SP. -/
def Obligations.PullsUndoPushes : Prop :=
  ∀ (s : State),
    (∃ t u, exec .php s = .next t ∧ exec .plp t = .next u ∧
      u = { s with pc := s.pc + 2, mem := t.mem, remainingCycles := 4 }) ∧
    (∃ t u, exec .pha s = .next t ∧ exec .pla t = .next u ∧
      u = { s with pc := s.pc + 2, mem := t.mem, p := nz s.a s.p, remainingCycles := 4 })

/-! ### Loads, stores and transfers (46_load_store_transfer.md) -/

/-- R210, R211, R212: LDA, LDX and LDY, in all their forms. -/
def Obligations.LoadResults : Prop :=
  EncodingIs .lda
      [(0xA9, .imm, 2), (0xA5, .zp0, 3), (0xB5, .zpx, 4), (0xAD, .abs, 4), (0xBD, .abx, 4), (0xB9, .aby, 4),
       (0xA1, .izx, 6), (0xB1, .izy, 5)] ∧
  EncodingIs .ldx
      [(0xA2, .imm, 2), (0xA6, .zp0, 3), (0xB6, .zpy, 4), (0xAE, .abs, 4), (0xBE, .aby, 4)] ∧
  EncodingIs .ldy
      [(0xA0, .imm, 2), (0xA4, .zp0, 3), (0xB4, .zpx, 4), (0xAC, .abs, 4), (0xBC, .abx, 4)] ∧
  ∀ (i : Instr) (s : State),
    let m := operandM i s
    (i.mnemonic = .lda → exec i s = .next
      { after i s with a := m, p := nz m s.p, remainingCycles := cycles i s true }) ∧
    (i.mnemonic = .ldx → exec i s = .next
      { after i s with x := m, p := nz m s.p, remainingCycles := cycles i s true }) ∧
    (i.mnemonic = .ldy → exec i s = .next
      { after i s with y := m, p := nz m s.p, remainingCycles := cycles i s true })

/-- R213, R214, R215: STA, STX and STY, in all their forms: one byte written at operand_address, no flag, no page-cross cycle. -/
def Obligations.StoreResults : Prop :=
  EncodingIs .sta
      [(0x85, .zp0, 3), (0x95, .zpx, 4), (0x8D, .abs, 4), (0x9D, .abx, 5), (0x99, .aby, 5), (0x81, .izx, 6),
       (0x91, .izy, 6)] ∧
  EncodingIs .stx
      [(0x86, .zp0, 3), (0x96, .zpy, 4), (0x8E, .abs, 4)] ∧
  EncodingIs .sty
      [(0x84, .zp0, 3), (0x94, .zpx, 4), (0x8C, .abs, 4)] ∧
  ∀ (i : Instr) (s : State),
    let stored (v : Byte) : State :=
      { after i s with
        mem := busWrite s.mem (after i s).operandAddress v
        remainingCycles := baseCycles i.opcode }
    (i.mnemonic = .sta → exec i s = .next (stored s.a)) ∧
    (i.mnemonic = .stx → exec i s = .next (stored s.x)) ∧
    (i.mnemonic = .sty → exec i s = .next (stored s.y))

/-- R216 to R221: the six transfers; TXS alone writes no flag. -/
def Obligations.TransferResults : Prop :=
  EncodingIs .tax
      [(0xAA, .imp, 2)] ∧
  EncodingIs .tay
      [(0xA8, .imp, 2)] ∧
  EncodingIs .txa
      [(0x8A, .imp, 2)] ∧
  EncodingIs .tya
      [(0x98, .imp, 2)] ∧
  EncodingIs .tsx
      [(0xBA, .imp, 2)] ∧
  EncodingIs .txs
      [(0x9A, .imp, 2)] ∧
  ∀ (s : State),
    let next : State := { s with pc := s.pc + 1, remainingCycles := 2 }
    exec .tax s = .next { next with x := s.a, p := nz s.a s.p } ∧
    exec .tay s = .next { next with y := s.a, p := nz s.a s.p } ∧
    exec .txa s = .next { next with a := s.x, p := nz s.x s.p } ∧
    exec .tya s = .next { next with a := s.y, p := nz s.y s.p } ∧
    exec .tsx s = .next { next with x := s.sp, p := nz s.sp s.p } ∧
    exec .txs s = .next { next with sp := s.x }

/-! ### Logic (47_logical.md) -/

/-- R230 to R233: AND, ORA and EOR, in all their forms, bit by bit; BIT: Z from A & M, N and V from bits 7 and 6 of M, A
unchanged. -/
def Obligations.LogicalAndBitResults : Prop :=
  EncodingIs .and
      [(0x29, .imm, 2), (0x25, .zp0, 3), (0x35, .zpx, 4), (0x2D, .abs, 4), (0x3D, .abx, 4), (0x39, .aby, 4),
       (0x21, .izx, 6), (0x31, .izy, 5)] ∧
  EncodingIs .ora
      [(0x09, .imm, 2), (0x05, .zp0, 3), (0x15, .zpx, 4), (0x0D, .abs, 4), (0x1D, .abx, 4), (0x19, .aby, 4),
       (0x01, .izx, 6), (0x11, .izy, 5)] ∧
  EncodingIs .eor
      [(0x49, .imm, 2), (0x45, .zp0, 3), (0x55, .zpx, 4), (0x4D, .abs, 4), (0x5D, .abx, 4), (0x59, .aby, 4),
       (0x41, .izx, 6), (0x51, .izy, 5)] ∧
  EncodingIs .bit
      [(0x24, .zp0, 3), (0x2C, .abs, 4)] ∧
  ∀ (i : Instr) (s : State),
    (i.mnemonic = .and ∨ i.mnemonic = .ora ∨ i.mnemonic = .eor →
      ∃ r : Byte, exec i s = .next { after i s with a := r, p := nz r s.p, remainingCycles := cycles i s true } ∧
        ∀ k, k < 8 →
          (i.mnemonic = .and → r.getLsbD k = (s.a.getLsbD k && (operandM i s).getLsbD k)) ∧
          (i.mnemonic = .ora → r.getLsbD k = (s.a.getLsbD k || (operandM i s).getLsbD k)) ∧
          (i.mnemonic = .eor → r.getLsbD k = (s.a.getLsbD k != (operandM i s).getLsbD k))) ∧
    (i.mnemonic = .bit →
      exec i s = .next
        { after i s with
          p := { s.p with
            z := decide (∀ k : Fin 8, ¬ (s.a.getLsbD k = true ∧ (operandM i s).getLsbD k = true))
            n := decide (128 ≤ (operandM i s).toNat)
            v := decide (64 ≤ (operandM i s).toNat % 128) }
          remainingCycles := cycles i s false })

/-! ### Increments and decrements (48_incdec.md) -/

/-- R240 to R245: INC, DEC, INX, INY, DEX and DEY: modulo 256, N and Z, neither C nor V. -/
def Obligations.IncrementResults : Prop :=
  EncodingIs .inc
      [(0xE6, .zp0, 5), (0xF6, .zpx, 6), (0xEE, .abs, 6), (0xFE, .abx, 7)] ∧
  EncodingIs .dec
      [(0xC6, .zp0, 5), (0xD6, .zpx, 6), (0xCE, .abs, 6), (0xDE, .abx, 7)] ∧
  EncodingIs .inx
      [(0xE8, .imp, 2)] ∧
  EncodingIs .iny
      [(0xC8, .imp, 2)] ∧
  EncodingIs .dex
      [(0xCA, .imp, 2)] ∧
  EncodingIs .dey
      [(0x88, .imp, 2)] ∧
  ∀ (i : Instr) (s : State),
    let up (v : Byte) : Byte := BitVec.ofNat 8 (v.toNat + 1)
    let down (v : Byte) : Byte := BitVec.ofNat 8 (v.toNat + 255)
    let next : State := { s with pc := s.pc + 1, remainingCycles := 2 }
    (i.mnemonic = .inc → exec i s = .next
      { modified i s (up (operandM i s)) with
        p := nz (up (operandM i s)) s.p
        remainingCycles := baseCycles i.opcode }) ∧
    (i.mnemonic = .dec → exec i s = .next
      { modified i s (down (operandM i s)) with
        p := nz (down (operandM i s)) s.p
        remainingCycles := baseCycles i.opcode }) ∧
    exec .inx s = .next { next with x := up s.x, p := nz (up s.x) s.p } ∧
    exec .iny s = .next { next with y := up s.y, p := nz (up s.y) s.p } ∧
    exec .dex s = .next { next with x := down s.x, p := nz (down s.x) s.p } ∧
    exec .dey s = .next { next with y := down s.y, p := nz (down s.y) s.p }

/-! ### Flags and NOP (49_flags_nop.md) -/

/-- R250 to R257: each flag instruction writes its one flag and NOP writes none; PC + 1 and 2 cycles. -/
def Obligations.FlagInstructionResults : Prop :=
  EncodingIs .clc
      [(0x18, .imp, 2)] ∧
  EncodingIs .cld
      [(0xD8, .imp, 2)] ∧
  EncodingIs .cli
      [(0x58, .imp, 2)] ∧
  EncodingIs .clv
      [(0xB8, .imp, 2)] ∧
  EncodingIs .sec
      [(0x38, .imp, 2)] ∧
  EncodingIs .sed
      [(0xF8, .imp, 2)] ∧
  EncodingIs .sei
      [(0x78, .imp, 2)] ∧
  EncodingIs .nop
      [(0xEA, .imp, 2)] ∧
  ∀ (s : State),
    let next : State := { s with pc := s.pc + 1, remainingCycles := 2 }
    exec .clc s = .next { next with p := { s.p with c := false } } ∧
    exec .cld s = .next { next with p := { s.p with d := false } } ∧
    exec .cli s = .next { next with p := { s.p with i := false } } ∧
    exec .clv s = .next { next with p := { s.p with v := false } } ∧
    exec .sec s = .next { next with p := { s.p with c := true } } ∧
    exec .sed s = .next { next with p := { s.p with d := true } } ∧
    exec .sei s = .next { next with p := { s.p with i := true } } ∧
    exec .nop s = .next next

/-! ### Interrupts and reset (60_exceptions.md, 70_reset_and_hazards.md) -/

/-- R262: interrupt entry, for the vectors of R260, which lie in PRG-ROM. -/
def Obligations.InterruptEntryPushesPcAndStatus : Prop :=
  ∀ (vector : Word) (b : Bool) (s : State), 0x8000 ≤ vector.toNat → vector.toNat < 0xFFFF →
    interruptEntry vector b s = entered vector b s.pc s

/-- R263, R264: `irq()` changes nothing when I = 1 and otherwise enters through 0xFFFE with B = 0; `nmi()` enters through
0xFFFA with B = 0, whatever I holds. Both whatever remaining_cycles is. -/
def Obligations.IrqIsMaskedByIAndNmiIsNot : Prop :=
  ∀ (s : State), Running s →
    (s.p.i = true → hostCall .irq s = .next s) ∧
    (s.p.i = false →
      hostCall .irq s = .next { entered 0xFFFE false s.pc s with remainingCycles := Config.irqCycles }) ∧
    hostCall .nmi s = .next { entered 0xFFFA false s.pc s with remainingCycles := Config.nmiCycles }

/-- R300, R301: what `reset()` leaves, from every state that is not halted: the registers of R33, PC from 0xFFFC, memory
unchanged. -/
def Obligations.ResetReinitialisesTheCpu : Prop :=
  ∀ (s : State), s.halted = none →
    ∃ t, hostCall .reset s = .next t ∧
      t = { s with
        a := 0x00, x := 0x00, y := 0x00, sp := 0xFF
        p := { n := false, v := false, d := false, i := true, z := false, c := false }
        pc := w16 (busRead s.mem 0xFFFC) (busRead s.mem 0xFFFD)
        operandAddress := 0x0000, relativeOffset := 0x0000
        remainingCycles := Config.resetCycles
        resetDone := true } ∧
      pRead t.p = 0x24

/-- `State.reset` is what R302's construction and one `reset()` leave, with the blank cartridge of log 1, which is the model's
choice. -/
def Obligations.ResetStateIsConstructionThenReset : Prop :=
  hostCall .reset (State.constructed Memory.blank) = .next State.reset

/-- R34, R74, R278: the getters, `Bus.read` and `disassemble_one` change nothing, and `Bus.write` is a Bus write and nothing
else. After reset the getters answer A, X, Y, SP, PC, `P_read()` and each of the eight flags, in numbers. -/
def Obligations.HostAccessesTouchOnlyMemory : Prop :=
  ∀ (s : State) (g : Getter) (a : Word) (v : Byte), s.halted = none →
    hostCall (.busRead a) s = .next s ∧
    hostCall (.disassemble a) s = .next s ∧
    hostCall (.busWrite a v) s = .next { s with mem := busWrite s.mem a v } ∧
    (s.resetDone = true →
      hostCall (.getter g) s = .next s ∧
      readGetter .a s = .ok s.a.toNat ∧
      readGetter .x s = .ok s.x.toNat ∧
      readGetter .y s = .ok s.y.toNat ∧
      readGetter .sp s = .ok s.sp.toNat ∧
      readGetter .pc s = .ok s.pc.toNat ∧
      readGetter .p s = .ok
        (128 * s.p.n.toNat + 64 * s.p.v.toNat + 32 + 8 * s.p.d.toNat + 4 * s.p.i.toNat + 2 * s.p.z.toNat + s.p.c.toNat) ∧
      readGetter (.flag .n) s = .ok s.p.n.toNat ∧
      readGetter (.flag .v) s = .ok s.p.v.toNat ∧
      readGetter (.flag .u) s = .ok 1 ∧
      readGetter (.flag .b) s = .ok 0 ∧
      readGetter (.flag .d) s = .ok s.p.d.toNat ∧
      readGetter (.flag .i) s = .ok s.p.i.toNat ∧
      readGetter (.flag .z) s = .ok s.p.z.toNat ∧
      readGetter (.flag .c) s = .ok s.p.c.toNat)

/-! ### Frames: what an instruction leaves unchanged -/

/-- R21, R22: A, X, Y and SP change only by the instructions the rules list as their writers. -/
def Obligations.RegistersChangeOnlyByTheirWriters : Prop :=
  ∀ (i : Instr) (s t : State), exec i s = .next t →
    (i.mnemonic ∉ [Mnemonic.lda, .pla, .txa, .tya, .adc, .sbc, .and, .ora, .eor] → i.operand.mode ≠ .acc → t.a = s.a) ∧
    (i.mnemonic ∉ [Mnemonic.ldx, .tax, .tsx, .inx, .dex] → t.x = s.x) ∧
    (i.mnemonic ∉ [Mnemonic.ldy, .tay, .iny, .dey] → t.y = s.y) ∧
    (i.mnemonic ∉ [Mnemonic.txs, .pha, .php, .pla, .plp, .jsr, .rts, .brk, .rti] → t.sp = s.sp)

/-- R35: each flag changes only by the instructions the rule lists as its writers. -/
def Obligations.FlagsChangeOnlyByTheirWriters : Prop :=
  ∀ (i : Instr) (s t : State), exec i s = .next t →
    let m := i.mnemonic
    let results : List Mnemonic :=
      [.adc, .sbc, .and, .ora, .eor, .lda, .ldx, .ldy, .tax, .tay, .txa, .tya, .tsx, .pla, .inc, .dec] ++
      [.inx, .iny, .dex, .dey, .asl, .lsr, .rol, .ror, .cmp, .cpx, .cpy, .bit, .plp, .rti]
    (m ∉ results → t.p.n = s.p.n ∧ t.p.z = s.p.z) ∧
    (m ∉ [Mnemonic.adc, .sbc, .bit, .clv, .plp, .rti] → t.p.v = s.p.v) ∧
    (m ∉ [Mnemonic.cld, .sed, .plp, .rti] → t.p.d = s.p.d) ∧
    (m ∉ [Mnemonic.cli, .sei, .brk, .plp, .rti] → t.p.i = s.p.i) ∧
    (m ∉ [Mnemonic.adc, .sbc, .cmp, .cpx, .cpy, .asl, .lsr, .rol, .ror, .clc, .sec, .plp, .rti] → t.p.c = s.p.c)

/-- A form that stores nothing (every instruction but the stores, the memory forms of the read-modify-writes, and the pushing
instructions) leaves every byte of memory as it was. -/
def Obligations.FormsThatStoreNothingKeepMemory : Prop :=
  ∀ (i : Instr) (s t : State), exec i s = .next t → i.mnemonic ∉ pushing →
    (i.mnemonic ∉ storing ∨ i.operand.mode = .acc) →
    ∀ b : Word, memRead t b = memRead s b

/-- A store or the memory form of a read-modify-write changes the byte at operand_address, at all mirrors of a RAM byte, and no
other byte of memory; where that address is not in RAM nothing changes. -/
def Obligations.StoresChangeOnlyTheAddressedByte : Prop :=
  ∀ (i : Instr) (s t : State), exec i s = .next t → i.mnemonic ∈ storing → i.operand.mode ≠ .acc →
    ∀ b : Word, ¬ SameRamByte (after i s).operandAddress b → memRead t b = memRead s b

/-- The pushing instructions change only the stack bytes they push: one for PHA and PHP, two for JSR, three for BRK, downwards
from SP, at all mirrors. -/
def Obligations.PushesChangeOnlyTheirStackBytes : Prop :=
  ∀ (i : Instr) (s t : State), exec i s = .next t → i.mnemonic ∈ pushing →
    let n := if i.mnemonic = .brk then 3 else if i.mnemonic = .jsr then 2 else 1
    ∀ b : Word, (∀ k, k < n → ¬ SameRamByte (stackByte (s.sp - BitVec.ofNat 8 k)) b) → memRead t b = memRead s b

/-- R28, R29, R32: no instruction changes halted, reset_done, the host's script, or PRG-ROM; operand_address and
relative_offset are what the instruction's own resolver left. -/
def Obligations.InstructionsKeepTheRestOfTheState : Prop :=
  ∀ (i : Instr) (s t : State), exec i s = .next t →
    t.halted = s.halted ∧ t.resetDone = s.resetDone ∧ t.hostCalls = s.hostCalls ∧
    t.mem.prg = s.mem.prg ∧ t.mem.prgSize = s.mem.prgSize ∧
    t.operandAddress = (after i s).operandAddress ∧ t.relativeOffset = (after i s).relativeOffset ∧
    (i.operand.mode ≠ .rel → t.relativeOffset = s.relativeOffset)

/-! ### Invariants -/

/-- The state after reset meets the invariant. -/
def Obligations.ResetMeetsTheInvariant : Prop := Inv State.reset

/-- Every step keeps the invariant, from every state that meets it: the block stays running and its memory in canonical form,
RAM within its 2048 bytes and PRG-ROM within its size. -/
def Obligations.StepKeepsTheInvariant : Prop :=
  ∀ (s t : State), Inv s → step s = .next t → Inv t
end

