-- ==== Sys2Proof/Laws/Decode.lean ====
section
/-! SUPPORT. Laws of the byte-order helpers and of the decoder. -/

namespace Sys2Proof

theorem lo_toNat (w : Word) : (lo w).toNat = w.toNat % 256 := by
  simp [lo]

theorem hi_toNat (w : Word) : (hi w).toNat = w.toNat / 256 := by
  simp only [hi, BitVec.extractLsb'_toNat, Nat.shiftRight_eq_div_pow]
  have := w.isLt
  omega

theorem w16_toNat (l h : Byte) : (w16 l h).toNat = l.toNat + 256 * h.toNat := by
  have hl := l.isLt
  have key : (w16 l h).toNat = h.toNat <<< 8 ||| l.toNat := BitVec.toNat_append h l
  rw [key, ← Nat.shiftLeft_add_eq_or_of_lt hl, Nat.shiftLeft_eq]
  omega

@[simp] theorem w16_lo_hi (w : Word) : w16 (lo w) (hi w) = w := by
  apply BitVec.eq_of_toNat_eq
  rw [w16_toNat, lo_toNat, hi_toNat]
  omega

@[simp] theorem lo_w16 (l h : Byte) : lo (w16 l h) = l := by
  have := l.isLt
  apply BitVec.eq_of_toNat_eq
  rw [lo_toNat, w16_toNat]
  omega

@[simp] theorem hi_w16 (l h : Byte) : hi (w16 l h) = h := by
  have := l.isLt
  apply BitVec.eq_of_toNat_eq
  rw [hi_toNat, w16_toNat]
  omega

@[simp] theorem zext16_toNat (b : Byte) : (zext16 b).toNat = b.toNat := by
  have := b.isLt
  simp only [zext16, BitVec.toNat_setWidth]
  omega

/-- The head byte of an encoding is the opcode, and its entry in the opcode map gives the instruction back: one byte. -/
theorem decode_f1 {op : Byte} {i : Instr} (h : opcodeMap op = .f1 i) (rest : List Byte) :
    decode (op :: rest) = .ok (i, rest) := by
  simp [decode, h]

/-- Two bytes: the entry gives the instruction from the operand byte. -/
theorem decode_f2 {op : Byte} {k : Byte → Instr} (h : opcodeMap op = .f2 k) (b : Byte) (rest : List Byte) :
    decode (op :: b :: rest) = .ok (k b, rest) := by
  simp [decode, h]

/-- Three bytes: the entry gives the instruction from the 16-bit operand, low byte first. -/
theorem decode_f3 {op : Byte} {k : Word → Instr} (h : opcodeMap op = .f3 k) (w : Word) (rest : List Byte) :
    decode (op :: lo w :: hi w :: rest) = .ok (k w, rest) := by
  simp [decode, h]

/-- The decoder's answer in full: the head byte's entry, with as many operand bytes as its format has. -/
theorem decode_ok_iff {bytes rest : List Byte} {i : Instr} :
    decode bytes = .ok (i, rest) ↔
      ∃ op, (opcodeMap op = .f1 i ∧ bytes = op :: rest) ∨
        (∃ k b, opcodeMap op = .f2 k ∧ i = k b ∧ bytes = op :: b :: rest) ∨
        (∃ k l h, opcodeMap op = .f3 k ∧ i = k (w16 l h) ∧ bytes = op :: l :: h :: rest) := by
  constructor
  · intro h
    match bytes with
    | [] => simp [decode] at h
    | op :: tail =>
      refine ⟨op, ?_⟩
      cases hm : opcodeMap op with
      | f1 j =>
        simp only [decode, hm, Except.ok.injEq, Prod.mk.injEq] at h
        exact .inl ⟨by rw [h.1], by rw [h.2]⟩
      | f2 k =>
        match tail with
        | [] => simp [decode, hm] at h
        | b :: t =>
          simp only [decode, hm, Except.ok.injEq, Prod.mk.injEq] at h
          exact .inr (.inl ⟨k, b, rfl, h.1.symm, by rw [h.2]⟩)
      | f3 k =>
        match tail with
        | [] => simp [decode, hm] at h
        | [_] => simp [decode, hm] at h
        | l :: b :: t =>
          simp only [decode, hm, Except.ok.injEq, Prod.mk.injEq] at h
          exact .inr (.inr ⟨k, l, b, rfl, h.1.symm, by rw [h.2]⟩)
  · rintro ⟨op, ⟨hm, rfl⟩ | ⟨k, b, hm, rfl, rfl⟩ | ⟨k, l, h, hm, rfl, rfl⟩⟩
    · exact decode_f1 hm rest
    · exact decode_f2 hm b rest
    · simp [decode, hm]

/-! ### The opcode map, entry by entry -/

/-- Everything an entry of the opcode map is (R106, R107): of a well-formed instruction that encodes to the entry's own
opcode and its operand bytes. -/
theorem opcodeMap_entry (op : Byte) :
    (∀ i, opcodeMap op = .f1 i → i.wf = true ∧ encode i = [op]) ∧
    (∀ k, opcodeMap op = .f2 k → ∀ b, (k b).wf = true ∧ encode (k b) = [op, b]) ∧
    (∀ k, opcodeMap op = .f3 k → ∀ w, (k w).wf = true ∧ encode (k w) = [op, lo w, hi w]) := by
  obtain ⟨n, rfl⟩ : ∃ n : Fin 256, op = BitVec.ofFin n := ⟨op.toFin, rfl⟩
  fin_cases n <;> refine ⟨?_, ?_, ?_⟩ <;> intro e he <;>
    first
      | (cases he; done)
      | (injection he with he
         subst he
         first
           | exact ⟨by decide, rfl⟩
           | exact fun _ => ⟨rfl, rfl⟩)

/-- The entry of an illegal byte is the fatal entry (R107). -/
theorem opcodeMap_illegal {op : Byte} (h : op ∈ illegalOpcodes) : opcodeMap op = fatal op := by
  have key : ∀ op : Byte, op ∈ illegalOpcodes →
      (match opcodeMap op with
        | .f1 i => decide (i = .unimplemented op)
        | _ => false) = true := by decide
  have := key op h
  revert this
  cases opcodeMap op <;> simp [fatal]

/-- The mnemonic and the mode of the entry at an opcode (R106). -/
def entryInfo (op : Byte) : Mnemonic × Mode :=
  match opcodeMap op with
  | .f1 i => (i.mnemonic, i.operand.mode)
  | .f2 k => ((k 0).mnemonic, (k 0).operand.mode)
  | .f3 k => ((k 0).mnemonic, (k 0).operand.mode)

/-- An instruction's mnemonic and mode are those of the map's entry at its opcode, so a fact about a row of the opcode map is
a finite question about its opcode. -/
theorem entryInfo_opcode (i : Instr) (h : i.wf = true) : entryInfo i.opcode = (i.mnemonic, i.operand.mode) := by
  cases i
  case unimplemented op =>
    have hm : opcodeMap op = fatal op := opcodeMap_illegal (by simpa [Instr.wf] using h)
    show entryInfo op = _
    rw [entryInfo, hm]
    rfl
  all_goals
    simp only [Instr.opcode, encode, List.headD_cons, entryInfo]
    rfl

end Sys2Proof
end

