-- ==== Sys2Proof/Laws/Memory.lean ====
section
/-! SUPPORT. Laws of memory: read after write for cells and for the Bus, and that every memory operation keeps the canonical
form. -/

namespace Sys2Proof.Machine

/-! ### Cells -/

theorem cellRead_cellErase (cells : List Host.Cell) (key k : Nat) :
    cellRead (cellErase cells key) k = if k = key then unlistedByte else cellRead cells k := by
  induction cells with
  | nil => simp [cellErase, cellRead]
  | cons cell rest ih =>
    obtain ⟨j, v⟩ := cell
    by_cases hj : j = key <;> by_cases hk : k = key <;> by_cases hjk : j = k <;>
      simp_all [cellErase, cellRead]

theorem cellRead_cellInsert (cells : List Host.Cell) (key k : Nat) (v : Byte) (absent : ∀ c ∈ cells, c.1 ≠ key) :
    cellRead (cellInsert cells key v) k = if k = key then v else cellRead cells k := by
  induction cells with
  | nil => simp [cellInsert, cellRead, eq_comm]
  | cons cell rest ih =>
    obtain ⟨j, w⟩ := cell
    have hj : j ≠ key := absent (j, w) (by simp)
    have ih' := ih fun c hc => absent c (by simp [hc])
    by_cases hlt : key < j
    · by_cases hk : k = key
      · simp [cellInsert, cellRead, hlt, hk]
      · simp [cellInsert, cellRead, hlt, hk, Ne.symm hk]
    · by_cases hk : k = key
      · subst hk; simp [cellInsert, cellRead, hlt, hj, ih']
      · simp [cellInsert, cellRead, hlt, hk, ih']

theorem cellErase_absent (cells : List Host.Cell) (key : Nat) : ∀ c ∈ cellErase cells key, c.1 ≠ key := by
  induction cells with
  | nil => simp [cellErase]
  | cons cell rest ih =>
    obtain ⟨j, v⟩ := cell
    by_cases hj : j = key
    · simpa [cellErase, hj] using ih
    · intro c hc
      simp only [cellErase, hj, if_false, List.mem_cons] at hc
      rcases hc with rfl | hc
      · exact hj
      · exact ih c hc

/-- A cell written reads as the byte written, and every other cell as before. -/
theorem cellRead_cellWrite (cells : List Host.Cell) (key k : Nat) (v : Byte) :
    cellRead (cellWrite cells key v) k = if k = key then v else cellRead cells k := by
  by_cases hv : v = unlistedByte
  · simp [cellWrite, hv, cellRead_cellErase]
  · rw [cellWrite, if_neg hv, cellRead_cellInsert _ _ _ _ (cellErase_absent cells key),
      cellRead_cellErase]
    by_cases hk : k = key <;> simp [hk]

/-! ### The canonical form -/

theorem cellsWf_mono {lo lo' hi : Nat} {cells : List Host.Cell} (h : lo' ≤ lo) (hw : cellsWf lo hi cells = true) :
    cellsWf lo' hi cells = true := by
  cases cells with
  | nil => rfl
  | cons cell rest =>
    obtain ⟨k, v⟩ := cell
    simp only [cellsWf, Bool.and_eq_true, decide_eq_true_eq] at hw ⊢
    exact ⟨⟨⟨by omega, hw.1.1.2⟩, hw.1.2⟩, hw.2⟩

theorem cellsWf_cellErase {lo hi : Nat} (cells : List Host.Cell) (key : Nat) (hw : cellsWf lo hi cells = true) :
    cellsWf lo hi (cellErase cells key) = true := by
  induction cells generalizing lo with
  | nil => rfl
  | cons cell rest ih =>
    obtain ⟨k, v⟩ := cell
    simp only [cellsWf, Bool.and_eq_true, decide_eq_true_eq] at hw
    by_cases hk : k = key
    · simp only [cellErase, hk, if_true]
      exact cellsWf_mono (by omega) (ih hw.2)
    · simp only [cellErase, hk, if_false, cellsWf, Bool.and_eq_true, decide_eq_true_eq]
      exact ⟨hw.1, ih hw.2⟩

theorem cellsWf_cellInsert {lo hi : Nat} (cells : List Host.Cell) (key : Nat) (v : Byte) (hlo : lo ≤ key) (hhi : key < hi)
    (hv : v ≠ unlistedByte) (absent : ∀ c ∈ cells, c.1 ≠ key) (hw : cellsWf lo hi cells = true) :
    cellsWf lo hi (cellInsert cells key v) = true := by
  induction cells generalizing lo with
  | nil => simp [cellInsert, cellsWf, hlo, hhi, hv]
  | cons cell rest ih =>
    obtain ⟨k, w⟩ := cell
    simp only [cellsWf, Bool.and_eq_true, decide_eq_true_eq] at hw
    have hk : k ≠ key := absent (k, w) (by simp)
    by_cases hlt : key < k
    · simp only [cellInsert, hlt, if_true, cellsWf, Bool.and_eq_true, decide_eq_true_eq]
      exact ⟨⟨⟨hlo, hhi⟩, hv⟩, ⟨⟨by omega, hw.1.1.2⟩, hw.1.2⟩, hw.2⟩
    · simp only [cellInsert, hlt, if_false, cellsWf, Bool.and_eq_true, decide_eq_true_eq]
      exact ⟨hw.1, ih (by omega) (fun c hc => absent c (by simp [hc])) hw.2⟩

/-- A write keeps the canonical form. -/
theorem cellsWf_cellWrite {hi : Nat} (cells : List Host.Cell) (key : Nat) (v : Byte) (hhi : key < hi)
    (hw : cellsWf 0 hi cells = true) : cellsWf 0 hi (cellWrite cells key v) = true := by
  by_cases hv : v = unlistedByte
  · simpa [cellWrite, hv] using cellsWf_cellErase cells key hw
  · rw [cellWrite, if_neg hv]
    exact cellsWf_cellInsert _ key v (Nat.zero_le _) hhi hv (cellErase_absent cells key) (cellsWf_cellErase cells key hw)

/-! ### The Bus -/

theorem ramKey_eq (addr : Word) : ramKey addr = addr.toNat % 2048 := by
  simp only [ramKey, BitVec.toNat_and]
  exact Nat.and_two_pow_sub_one_eq_mod addr.toNat 11

theorem ramKey_lt (addr : Word) : ramKey addr < ramSize := by
  rw [ramKey_eq]
  exact Nat.mod_lt _ (by decide)

theorem inRam_iff (addr : Word) : inRam addr = true ↔ addr.toNat < 0x2000 := by
  rw [inRam, decide_eq_true_eq, BitVec.le_def]
  show addr.toNat ≤ 8191 ↔ _
  omega

/-- A write outside RAM has no effect (R52, R59). -/
theorem busWrite_outside {m : Memory} {addr : Word} {v : Byte} (h : inRam addr = false) : busWrite m addr v = m := by
  simp [busWrite, h, cartWrite]

/-- Everything a Bus write can do: write one RAM cell, or nothing. -/
theorem busWrite_cases (m : Memory) (addr : Word) (v : Byte) :
    (inRam addr = true ∧ busWrite m addr v = { m with ram := cellWrite m.ram (ramKey addr) v }) ∨
    (inRam addr = false ∧ busWrite m addr v = m) := by
  cases h : inRam addr
  · exact .inr ⟨rfl, busWrite_outside h⟩
  · exact .inl ⟨rfl, by simp [busWrite, h]⟩

@[simp] theorem busWrite_prg (m : Memory) (addr : Word) (v : Byte) : (busWrite m addr v).prg = m.prg := by
  rcases busWrite_cases m addr v with ⟨_, h⟩ | ⟨_, h⟩ <;> rw [h]

@[simp] theorem busWrite_prgSize (m : Memory) (addr : Word) (v : Byte) : (busWrite m addr v).prgSize = m.prgSize := by
  rcases busWrite_cases m addr v with ⟨_, h⟩ | ⟨_, h⟩ <;> rw [h]

/-- A read after a write, for every pair of addresses: the byte written, where both name one RAM cell, and otherwise what the
read gave before. -/
theorem busRead_busWrite (m : Memory) (a b : Word) (v : Byte) :
    busRead (busWrite m a v) b =
      if inRam a = true ∧ inRam b = true ∧ ramKey b = ramKey a then v else busRead m b := by
  rcases busWrite_cases m a v with ⟨ha, h⟩ | ⟨ha, h⟩
  · rw [h]
    cases hb : inRam b
    · simp [busRead, hb, cartRead]
    · by_cases hk : ramKey b = ramKey a <;> simp [busRead, ha, hb, hk, cellRead_cellWrite]
  · rw [h]; simp [ha]

/-- A Bus write keeps the canonical form. -/
theorem busWrite_wf {m : Memory} (addr : Word) (v : Byte) (h : m.wf = true) : (busWrite m addr v).wf = true := by
  rcases busWrite_cases m addr v with ⟨_, e⟩ | ⟨_, e⟩ <;> rw [e]
  · simp only [Memory.wf, Bool.and_eq_true] at h ⊢
    exact ⟨cellsWf_cellWrite _ _ _ (ramKey_lt addr) h.1, h.2⟩
  · exact h

/-- The memory after reset is in canonical form. -/
theorem blank_wf : Memory.blank.wf = true := by decide

/-- Reads of addresses outside RAM do not see Bus writes: the vectors, code in PRG-ROM. -/
theorem busRead_busWrite_outside {m : Memory} {a b : Word} {v : Byte} (h : inRam b = false) :
    busRead (busWrite m a v) b = busRead m b := by
  rw [busRead_busWrite, if_neg fun hc => by simp [h] at hc]

/-! ### The mapper -/

/-- NROM's translation of a 32 KB cartridge, as a number (R58). -/
theorem mapCpuAddress_kb32 {addr : Word} (h : 0x8000 ≤ addr.toNat) :
    mapCpuAddress .kb32 addr = some (addr.toNat - 0x8000) := by
  have h1 : ¬ addr < (0x8000 : Word) := by rw [BitVec.lt_def]; show ¬ addr.toNat < 32768; omega
  have := addr.isLt
  rw [mapCpuAddress, if_neg h1]
  show some (addr - 0x8000#16).toNat = _
  rw [BitVec.toNat_sub]
  simp
  omega

/-- NROM's translation of a 16 KB cartridge, as a number (R58). -/
theorem mapCpuAddress_kb16 {addr : Word} (h : 0x8000 ≤ addr.toNat) :
    mapCpuAddress .kb16 addr = some ((addr.toNat - 0x8000) % 0x4000) := by
  have h1 : ¬ addr < (0x8000 : Word) := by rw [BitVec.lt_def]; show ¬ addr.toNat < 32768; omega
  have := addr.isLt
  have mask := Nat.and_two_pow_sub_one_eq_mod ((2 ^ 16 - (0x8000#16).toNat + addr.toNat) % 2 ^ 16) 14
  rw [mapCpuAddress, if_neg h1]
  show some ((addr - 0x8000#16) &&& 0x3FFF#16).toNat = _
  rw [BitVec.toNat_and, BitVec.toNat_sub]
  simp only [BitVec.toNat_ofNat] at *
  norm_num at *
  rw [mask]
  omega

/-- Every offset the mapper gives lies in PRG-ROM (R58). -/
theorem mapCpuAddress_lt {size : PrgSize} {addr : Word} {off : Nat} (h : mapCpuAddress size addr = some off) :
    off < size.length := by
  have := addr.isLt
  by_cases hlo : addr < (0x8000 : Word)
  · simp only [mapCpuAddress, if_pos hlo, reduceCtorEq] at h
  · have ha : 0x8000 ≤ addr.toNat := by
      rw [BitVec.lt_def] at hlo
      exact Nat.le_of_not_lt hlo
    cases size
    · rw [mapCpuAddress_kb16 ha, Option.some.injEq] at h
      simp only [PrgSize.length]
      omega
    · rw [mapCpuAddress_kb32 ha, Option.some.injEq] at h
      simp only [PrgSize.length]
      omega

/-- A read of the PRG window is a read of PRG-ROM (R52, R57, R58). -/
theorem busRead_prg {m : Memory} {addr : Word} (h : 0x8000 ≤ addr.toNat) :
    busRead m addr =
      cellRead m.prg (match m.prgSize with
        | .kb16 => (addr.toNat - 0x8000) % 0x4000
        | .kb32 => addr.toNat - 0x8000) := by
  have h0 : inRam addr = false := by rw [← Bool.not_eq_true, inRam_iff]; omega
  have h1 : ¬ addr ≤ (0x3FFF : Word) := by rw [BitVec.le_def]; show ¬ addr.toNat ≤ 16383; omega
  have h2 : ¬ addr ≤ (0x401F : Word) := by rw [BitVec.le_def]; show ¬ addr.toNat ≤ 16415; omega
  rw [busRead, h0, if_neg (by decide), if_neg h1, if_neg h2, cartRead]
  cases hs : m.prgSize <;> simp [mapCpuAddress_kb16 h, mapCpuAddress_kb32 h]

/-! ### Stack bytes -/

theorem stackAddress_toNat (sp : Byte) : (stackAddress sp).toNat = 256 + sp.toNat := by
  have := sp.isLt
  simp [stackAddress, BitVec.toNat_add]
  omega

theorem stackAddress_inRam (sp : Byte) : inRam (stackAddress sp) = true := by
  rw [inRam_iff, stackAddress_toNat]
  have := sp.isLt
  omega

theorem ramKey_stackAddress (sp : Byte) : ramKey (stackAddress sp) = 256 + sp.toNat := by
  rw [ramKey_eq, stackAddress_toNat]
  have := sp.isLt
  omega

/-- Distinct values of SP designate distinct bytes. -/
theorem ramKey_stackAddress_inj {sp sp' : Byte} : ramKey (stackAddress sp) = ramKey (stackAddress sp') ↔ sp = sp' := by
  rw [ramKey_stackAddress, ramKey_stackAddress]
  constructor
  · intro h; exact BitVec.eq_of_toNat_eq (by omega)
  · rintro rfl; rfl

/-- A stack byte read after a stack byte written. -/
theorem busRead_stack (m : Memory) (sp sp' : Byte) (v : Byte) :
    busRead (busWrite m (stackAddress sp) v) (stackAddress sp') =
      if sp' = sp then v else busRead m (stackAddress sp') := by
  rw [busRead_busWrite]
  simp [stackAddress_inRam, ramKey_stackAddress_inj]

end Sys2Proof.Machine
end

