-- ==== Sys2Proof/Laws/Cartridge.lean ====
section
/-! SUPPORT. Laws of the memory operations that are not Bus writes: building a cartridge's PRG-ROM and placing an instruction.
Both keep the canonical form. -/

namespace Sys2Proof.Machine

/-- A cartridge's cells are in canonical form. -/
theorem cellsWf_cellsOf (bytes : List Byte) (key bound : Nat) (h : key + bytes.length ≤ bound) :
    cellsWf key bound (cellsOf key bytes) = true := by
  induction bytes generalizing key with
  | nil => rfl
  | cons b rest ih =>
    simp only [List.length_cons] at h
    have hr := ih (key + 1) (by omega)
    by_cases hb : b = unlistedByte
    · simp only [cellsOf, hb, if_true]
      exact cellsWf_mono (Nat.le_succ key) hr
    · simp only [cellsOf, hb, if_false, cellsWf, Bool.and_eq_true, decide_eq_true_eq]
      exact ⟨⟨⟨le_refl _, by omega⟩, hb⟩, hr⟩

/-- A header is sixteen bytes: a shorter image has none. -/
theorem splitHeader_short {image : List Byte} (h : image.length < 16) : splitHeader image = none := by
  unfold splitHeader
  split
  · simp only [List.length_cons] at h
    omega
  · rfl

/-- A placed byte keeps the canonical form. -/
theorem placeByte_wf {m : Memory} (addr : Word) (v : Byte) (h : m.wf = true) : (placeByte addr v m).wf = true := by
  simp only [Memory.wf, Bool.and_eq_true] at h
  cases hr : inRam addr
  · cases hp : mapCpuAddress m.prgSize addr with
    | none => simpa [placeByte, hr, hp, Memory.wf] using h
    | some off =>
      simp only [placeByte, hr, hp, Memory.wf, Bool.and_eq_true, Bool.false_eq_true, if_false]
      exact ⟨h.1, cellsWf_cellWrite _ _ _ (mapCpuAddress_lt hp) h.2⟩
  · simp only [placeByte, hr, Memory.wf, Bool.and_eq_true, if_true]
    exact ⟨cellsWf_cellWrite _ _ _ (ramKey_lt addr) h.1, h.2⟩

/-- Placing an instruction keeps the canonical form. -/
theorem withFetchWord_wf (s : State) (nbits w : Nat) (h : s.mem.wf = true) : (s.withFetchWord nbits w).mem.wf = true :=
  placeByte_wf _ _ (placeByte_wf _ _ (placeByte_wf _ _ h))

end Sys2Proof.Machine
end

