-- ==== Sys2Proof/Laws/Flags.lean ====
section
/-! SUPPORT. Laws of the status register and of the flag computations. -/

namespace Sys2Proof.Machine

/-- The flags a pulled P_read() loads are those it was made of (R25). -/
@[simp] theorem ofByte_pRead (p : Flags) : Flags.ofByte (pRead p) = p := by
  rcases p with ⟨n, v, d, i, z, c⟩
  revert n v d i z c
  decide

/-- PLP of the byte PHP pushed (R202, R204). -/
@[simp] theorem ofByte_phpStatus (p : Flags) : Flags.ofByte (phpStatus p) = p := by
  rcases p with ⟨n, v, d, i, z, c⟩
  revert n v d i z c
  decide

/-- RTI of the byte interrupt entry pushed (R194, R262). -/
@[simp] theorem ofByte_entryStatus (b : Bool) (p : Flags) : Flags.ofByte (entryStatus b p) = p := by
  rcases p with ⟨n, v, d, i, z, c⟩
  revert b n v d i z c
  decide

/-- P_read() of pulled flags: bit 5 reads 1 and bit 4 reads 0, the others are the byte's (R25). -/
theorem pRead_ofByte (b : Byte) : pRead (Flags.ofByte b) = (b &&& 0xCF) ||| 0x20 := by
  revert b
  decide

@[simp] theorem setNZ_v (b : Byte) (p : Flags) : (setNZ b p).v = p.v := rfl
@[simp] theorem setNZ_d (b : Byte) (p : Flags) : (setNZ b p).d = p.d := rfl
@[simp] theorem setNZ_i (b : Byte) (p : Flags) : (setNZ b p).i = p.i := rfl
@[simp] theorem setNZ_c (b : Byte) (p : Flags) : (setNZ b p).c = p.c := rfl
@[simp] theorem setNZ_z (b : Byte) (p : Flags) : (setNZ b p).z = (b == 0x00) := rfl
@[simp] theorem setNZ_n (b : Byte) (p : Flags) : (setNZ b p).n = b.getLsbD 7 := rfl

@[simp] theorem addFlags_d (a m : Byte) (p : Flags) : (addFlags a m p).d = p.d := rfl
@[simp] theorem addFlags_i (a m : Byte) (p : Flags) : (addFlags a m p).i = p.i := rfl
@[simp] theorem compareFlags_d (a m : Byte) (p : Flags) : (compareFlags a m p).d = p.d := rfl
@[simp] theorem compareFlags_i (a m : Byte) (p : Flags) : (compareFlags a m p).i = p.i := rfl
@[simp] theorem compareFlags_v (a m : Byte) (p : Flags) : (compareFlags a m p).v = p.v := rfl
@[simp] theorem bitFlags_c (a m : Byte) (p : Flags) : (bitFlags a m p).c = p.c := rfl
@[simp] theorem bitFlags_d (a m : Byte) (p : Flags) : (bitFlags a m p).d = p.d := rfl
@[simp] theorem bitFlags_i (a m : Byte) (p : Flags) : (bitFlags a m p).i = p.i := rfl

/-- The result of the widened addition, as a number (R160). -/
theorem sumByte_toNat (a m : Byte) (c : Bool) :
    (sumByte a m c).toNat = (a.toNat + m.toNat + c.toNat) % 256 := by
  have := a.isLt
  have := m.isLt
  cases c <;> simp [sumByte, wideSum, BitVec.toNat_add]

/-- The carry out of the widened addition, as a number (R160). -/
theorem sumCarry_eq (a m : Byte) (c : Bool) :
    sumCarry a m c = decide (255 < a.toNat + m.toNat + c.toNat) := by
  have := a.isLt
  have := m.isLt
  cases c <;> simp [sumCarry, wideSum, BitVec.lt_def, BitVec.toNat_add] <;> omega

/-- Bit 7 of a byte, by its number. -/
theorem bit7_eq (b : Byte) : b.getLsbD 7 = decide (128 ≤ b.toNat) := by
  revert b
  decide

/-- The overflow formula of R160 in terms of the three sign bits: the operands agree and the result differs from them. -/
theorem sumOverflow_eq (a m r : Byte) :
    sumOverflow a m r = (decide (128 ≤ a.toNat) == decide (128 ≤ m.toNat) && decide (128 ≤ a.toNat) != decide (128 ≤ r.toNat)) := by
  have mask : ∀ b : Byte, ((b &&& 0x80) != 0x00) = b.getLsbD 7 := by decide
  rw [sumOverflow, mask, ← bit7_eq, ← bit7_eq, ← bit7_eq]
  simp only [BitVec.getLsbD_and, BitVec.getLsbD_not, BitVec.getLsbD_xor]
  cases a.getLsbD 7 <;> cases m.getLsbD 7 <;> cases r.getLsbD 7 <;> rfl

end Sys2Proof.Machine
end

