-- ==== Sys2Proof/Laws/State.lean ====
section
/-! SUPPORT. The fields of State after each named update: one lemma a field, so that no later proof unfolds an update. -/

namespace Sys2Proof.Machine

/-! #### memWrite -/

@[simp] theorem memWrite_a (addr : Word) (v : Byte) (s : State) : (memWrite addr v s).a = s.a := rfl
@[simp] theorem memWrite_x (addr : Word) (v : Byte) (s : State) : (memWrite addr v s).x = s.x := rfl
@[simp] theorem memWrite_y (addr : Word) (v : Byte) (s : State) : (memWrite addr v s).y = s.y := rfl
@[simp] theorem memWrite_sp (addr : Word) (v : Byte) (s : State) : (memWrite addr v s).sp = s.sp := rfl
@[simp] theorem memWrite_pc (addr : Word) (v : Byte) (s : State) : (memWrite addr v s).pc = s.pc := rfl
@[simp] theorem memWrite_p (addr : Word) (v : Byte) (s : State) : (memWrite addr v s).p = s.p := rfl
@[simp] theorem memWrite_operandAddress (addr : Word) (v : Byte) (s : State) : (memWrite addr v s).operandAddress = s.operandAddress := rfl
@[simp] theorem memWrite_relativeOffset (addr : Word) (v : Byte) (s : State) : (memWrite addr v s).relativeOffset = s.relativeOffset := rfl
@[simp] theorem memWrite_remainingCycles (addr : Word) (v : Byte) (s : State) : (memWrite addr v s).remainingCycles = s.remainingCycles := rfl
@[simp] theorem memWrite_halted (addr : Word) (v : Byte) (s : State) : (memWrite addr v s).halted = s.halted := rfl
@[simp] theorem memWrite_resetDone (addr : Word) (v : Byte) (s : State) : (memWrite addr v s).resetDone = s.resetDone := rfl
@[simp] theorem memWrite_mem (addr : Word) (v : Byte) (s : State) : (memWrite addr v s).mem = busWrite s.mem addr v := rfl
@[simp] theorem memWrite_hostCalls (addr : Word) (v : Byte) (s : State) : (memWrite addr v s).hostCalls = s.hostCalls := rfl

/-! #### push -/

@[simp] theorem push_a (v : Byte) (s : State) : (push v s).a = s.a := rfl
@[simp] theorem push_x (v : Byte) (s : State) : (push v s).x = s.x := rfl
@[simp] theorem push_y (v : Byte) (s : State) : (push v s).y = s.y := rfl
@[simp] theorem push_sp (v : Byte) (s : State) : (push v s).sp = s.sp - 1 := rfl
@[simp] theorem push_pc (v : Byte) (s : State) : (push v s).pc = s.pc := rfl
@[simp] theorem push_p (v : Byte) (s : State) : (push v s).p = s.p := rfl
@[simp] theorem push_operandAddress (v : Byte) (s : State) : (push v s).operandAddress = s.operandAddress := rfl
@[simp] theorem push_relativeOffset (v : Byte) (s : State) : (push v s).relativeOffset = s.relativeOffset := rfl
@[simp] theorem push_remainingCycles (v : Byte) (s : State) : (push v s).remainingCycles = s.remainingCycles := rfl
@[simp] theorem push_halted (v : Byte) (s : State) : (push v s).halted = s.halted := rfl
@[simp] theorem push_resetDone (v : Byte) (s : State) : (push v s).resetDone = s.resetDone := rfl
@[simp] theorem push_mem (v : Byte) (s : State) : (push v s).mem = busWrite s.mem (stackAddress s.sp) v := rfl
@[simp] theorem push_hostCalls (v : Byte) (s : State) : (push v s).hostCalls = s.hostCalls := rfl

/-! #### pullState -/

@[simp] theorem pullState_a (s : State) : (pullState s).a = s.a := rfl
@[simp] theorem pullState_x (s : State) : (pullState s).x = s.x := rfl
@[simp] theorem pullState_y (s : State) : (pullState s).y = s.y := rfl
@[simp] theorem pullState_sp (s : State) : (pullState s).sp = s.sp + 1 := rfl
@[simp] theorem pullState_pc (s : State) : (pullState s).pc = s.pc := rfl
@[simp] theorem pullState_p (s : State) : (pullState s).p = s.p := rfl
@[simp] theorem pullState_operandAddress (s : State) : (pullState s).operandAddress = s.operandAddress := rfl
@[simp] theorem pullState_relativeOffset (s : State) : (pullState s).relativeOffset = s.relativeOffset := rfl
@[simp] theorem pullState_remainingCycles (s : State) : (pullState s).remainingCycles = s.remainingCycles := rfl
@[simp] theorem pullState_halted (s : State) : (pullState s).halted = s.halted := rfl
@[simp] theorem pullState_resetDone (s : State) : (pullState s).resetDone = s.resetDone := rfl
@[simp] theorem pullState_mem (s : State) : (pullState s).mem = s.mem := rfl
@[simp] theorem pullState_hostCalls (s : State) : (pullState s).hostCalls = s.hostCalls := rfl

/-! #### resolve -/

@[simp] theorem resolve_a (o : Operand) (s : State) : (resolve o s).a = s.a := rfl
@[simp] theorem resolve_x (o : Operand) (s : State) : (resolve o s).x = s.x := rfl
@[simp] theorem resolve_y (o : Operand) (s : State) : (resolve o s).y = s.y := rfl
@[simp] theorem resolve_sp (o : Operand) (s : State) : (resolve o s).sp = s.sp := rfl
@[simp] theorem resolve_pc (o : Operand) (s : State) : (resolve o s).pc = s.pc + BitVec.ofNat 16 (o.mode.size - 1) := rfl
@[simp] theorem resolve_p (o : Operand) (s : State) : (resolve o s).p = s.p := rfl
@[simp] theorem resolve_operandAddress (o : Operand) (s : State) : (resolve o s).operandAddress = operandAddr o s := rfl
@[simp] theorem resolve_relativeOffset (o : Operand) (s : State) : (resolve o s).relativeOffset = operandOffset o s := rfl
@[simp] theorem resolve_remainingCycles (o : Operand) (s : State) : (resolve o s).remainingCycles = s.remainingCycles := rfl
@[simp] theorem resolve_halted (o : Operand) (s : State) : (resolve o s).halted = s.halted := rfl
@[simp] theorem resolve_resetDone (o : Operand) (s : State) : (resolve o s).resetDone = s.resetDone := rfl
@[simp] theorem resolve_mem (o : Operand) (s : State) : (resolve o s).mem = s.mem := rfl
@[simp] theorem resolve_hostCalls (o : Operand) (s : State) : (resolve o s).hostCalls = s.hostCalls := rfl

/-! #### fetched -/

@[simp] theorem fetched_a (o : Operand) (s : State) : (fetched o s).a = s.a := rfl
@[simp] theorem fetched_x (o : Operand) (s : State) : (fetched o s).x = s.x := rfl
@[simp] theorem fetched_y (o : Operand) (s : State) : (fetched o s).y = s.y := rfl
@[simp] theorem fetched_sp (o : Operand) (s : State) : (fetched o s).sp = s.sp := rfl
@[simp] theorem fetched_pc (o : Operand) (s : State) : (fetched o s).pc = s.pc + 1 + BitVec.ofNat 16 (o.mode.size - 1) := rfl
@[simp] theorem fetched_p (o : Operand) (s : State) : (fetched o s).p = s.p := rfl
@[simp] theorem fetched_remainingCycles (o : Operand) (s : State) : (fetched o s).remainingCycles = s.remainingCycles := rfl
@[simp] theorem fetched_halted (o : Operand) (s : State) : (fetched o s).halted = s.halted := rfl
@[simp] theorem fetched_resetDone (o : Operand) (s : State) : (fetched o s).resetDone = s.resetDone := rfl
@[simp] theorem fetched_mem (o : Operand) (s : State) : (fetched o s).mem = s.mem := rfl
@[simp] theorem fetched_hostCalls (o : Operand) (s : State) : (fetched o s).hostCalls = s.hostCalls := rfl

/-! #### writeBack -/

@[simp] theorem writeBack_x (o : Operand) (v : Byte) (s : State) : (writeBack o v s).x = s.x := by cases o <;> rfl
@[simp] theorem writeBack_y (o : Operand) (v : Byte) (s : State) : (writeBack o v s).y = s.y := by cases o <;> rfl
@[simp] theorem writeBack_sp (o : Operand) (v : Byte) (s : State) : (writeBack o v s).sp = s.sp := by cases o <;> rfl
@[simp] theorem writeBack_pc (o : Operand) (v : Byte) (s : State) : (writeBack o v s).pc = s.pc := by cases o <;> rfl
@[simp] theorem writeBack_p (o : Operand) (v : Byte) (s : State) : (writeBack o v s).p = s.p := by cases o <;> rfl
@[simp] theorem writeBack_operandAddress (o : Operand) (v : Byte) (s : State) : (writeBack o v s).operandAddress = s.operandAddress := by cases o <;> rfl
@[simp] theorem writeBack_relativeOffset (o : Operand) (v : Byte) (s : State) : (writeBack o v s).relativeOffset = s.relativeOffset := by cases o <;> rfl
@[simp] theorem writeBack_remainingCycles (o : Operand) (v : Byte) (s : State) : (writeBack o v s).remainingCycles = s.remainingCycles := by cases o <;> rfl
@[simp] theorem writeBack_halted (o : Operand) (v : Byte) (s : State) : (writeBack o v s).halted = s.halted := by cases o <;> rfl
@[simp] theorem writeBack_resetDone (o : Operand) (v : Byte) (s : State) : (writeBack o v s).resetDone = s.resetDone := by cases o <;> rfl
@[simp] theorem writeBack_hostCalls (o : Operand) (v : Byte) (s : State) : (writeBack o v s).hostCalls = s.hostCalls := by cases o <;> rfl

/-! #### countDown -/

@[simp] theorem countDown_a (s : State) : (countDown s).a = s.a := rfl
@[simp] theorem countDown_x (s : State) : (countDown s).x = s.x := rfl
@[simp] theorem countDown_y (s : State) : (countDown s).y = s.y := rfl
@[simp] theorem countDown_sp (s : State) : (countDown s).sp = s.sp := rfl
@[simp] theorem countDown_pc (s : State) : (countDown s).pc = s.pc := rfl
@[simp] theorem countDown_p (s : State) : (countDown s).p = s.p := rfl
@[simp] theorem countDown_operandAddress (s : State) : (countDown s).operandAddress = s.operandAddress := rfl
@[simp] theorem countDown_relativeOffset (s : State) : (countDown s).relativeOffset = s.relativeOffset := rfl
@[simp] theorem countDown_remainingCycles (s : State) : (countDown s).remainingCycles = s.remainingCycles - 1 := rfl
@[simp] theorem countDown_halted (s : State) : (countDown s).halted = s.halted := rfl
@[simp] theorem countDown_resetDone (s : State) : (countDown s).resetDone = s.resetDone := rfl
@[simp] theorem countDown_mem (s : State) : (countDown s).mem = s.mem := rfl
@[simp] theorem countDown_hostCalls (s : State) : (countDown s).hostCalls = s.hostCalls := rfl

/-! #### interruptEntry -/

@[simp] theorem interruptEntry_a (vector : Word) (b : Bool) (s : State) : (interruptEntry vector b s).a = s.a := by simp [interruptEntry]
@[simp] theorem interruptEntry_x (vector : Word) (b : Bool) (s : State) : (interruptEntry vector b s).x = s.x := by simp [interruptEntry]
@[simp] theorem interruptEntry_y (vector : Word) (b : Bool) (s : State) : (interruptEntry vector b s).y = s.y := by simp [interruptEntry]
@[simp] theorem interruptEntry_sp (vector : Word) (b : Bool) (s : State) : (interruptEntry vector b s).sp = s.sp - 1 - 1 - 1 := by simp [interruptEntry]
@[simp] theorem interruptEntry_p (vector : Word) (b : Bool) (s : State) : (interruptEntry vector b s).p = { s.p with i := true } := by simp [interruptEntry]
@[simp] theorem interruptEntry_operandAddress (vector : Word) (b : Bool) (s : State) : (interruptEntry vector b s).operandAddress = s.operandAddress := by simp [interruptEntry]
@[simp] theorem interruptEntry_relativeOffset (vector : Word) (b : Bool) (s : State) : (interruptEntry vector b s).relativeOffset = s.relativeOffset := by simp [interruptEntry]
@[simp] theorem interruptEntry_remainingCycles (vector : Word) (b : Bool) (s : State) : (interruptEntry vector b s).remainingCycles = s.remainingCycles := by simp [interruptEntry]
@[simp] theorem interruptEntry_halted (vector : Word) (b : Bool) (s : State) : (interruptEntry vector b s).halted = s.halted := by simp [interruptEntry]
@[simp] theorem interruptEntry_resetDone (vector : Word) (b : Bool) (s : State) : (interruptEntry vector b s).resetDone = s.resetDone := by simp [interruptEntry]
@[simp] theorem interruptEntry_hostCalls (vector : Word) (b : Bool) (s : State) : (interruptEntry vector b s).hostCalls = s.hostCalls := by simp [interruptEntry]

/-! #### interruptReturn -/

@[simp] theorem interruptReturn_a (s : State) : (interruptReturn s).a = s.a := by simp only [interruptReturn, pullState]
@[simp] theorem interruptReturn_x (s : State) : (interruptReturn s).x = s.x := by simp only [interruptReturn, pullState]
@[simp] theorem interruptReturn_y (s : State) : (interruptReturn s).y = s.y := by simp only [interruptReturn, pullState]
@[simp] theorem interruptReturn_sp (s : State) : (interruptReturn s).sp = s.sp + 1 + 1 + 1 := by simp only [interruptReturn, pullState]
@[simp] theorem interruptReturn_pc (s : State) : (interruptReturn s).pc = w16 (pullByte (pullState s)) (pullByte (pullState (pullState s))) := by simp only [interruptReturn, pullState]
@[simp] theorem interruptReturn_p (s : State) : (interruptReturn s).p = Flags.ofByte (pullByte s) := by simp only [interruptReturn, pullState]
@[simp] theorem interruptReturn_operandAddress (s : State) : (interruptReturn s).operandAddress = s.operandAddress := by simp only [interruptReturn, pullState]
@[simp] theorem interruptReturn_relativeOffset (s : State) : (interruptReturn s).relativeOffset = s.relativeOffset := by simp only [interruptReturn, pullState]
@[simp] theorem interruptReturn_remainingCycles (s : State) : (interruptReturn s).remainingCycles = s.remainingCycles := by simp only [interruptReturn, pullState]
@[simp] theorem interruptReturn_halted (s : State) : (interruptReturn s).halted = s.halted := by simp only [interruptReturn, pullState]
@[simp] theorem interruptReturn_resetDone (s : State) : (interruptReturn s).resetDone = s.resetDone := by simp only [interruptReturn, pullState]
@[simp] theorem interruptReturn_mem (s : State) : (interruptReturn s).mem = s.mem := by simp only [interruptReturn, pullState]
@[simp] theorem interruptReturn_hostCalls (s : State) : (interruptReturn s).hostCalls = s.hostCalls := by simp only [interruptReturn, pullState]

/-! #### haltState -/

@[simp] theorem haltState_a (opcode : Byte) (address : Word) (s : State) : (haltState opcode address s).a = s.a := rfl
@[simp] theorem haltState_x (opcode : Byte) (address : Word) (s : State) : (haltState opcode address s).x = s.x := rfl
@[simp] theorem haltState_y (opcode : Byte) (address : Word) (s : State) : (haltState opcode address s).y = s.y := rfl
@[simp] theorem haltState_sp (opcode : Byte) (address : Word) (s : State) : (haltState opcode address s).sp = s.sp := rfl
@[simp] theorem haltState_pc (opcode : Byte) (address : Word) (s : State) : (haltState opcode address s).pc = s.pc + 1 := rfl
@[simp] theorem haltState_p (opcode : Byte) (address : Word) (s : State) : (haltState opcode address s).p = s.p := rfl
@[simp] theorem haltState_operandAddress (opcode : Byte) (address : Word) (s : State) : (haltState opcode address s).operandAddress = s.operandAddress := rfl
@[simp] theorem haltState_relativeOffset (opcode : Byte) (address : Word) (s : State) : (haltState opcode address s).relativeOffset = s.relativeOffset := rfl
@[simp] theorem haltState_remainingCycles (opcode : Byte) (address : Word) (s : State) : (haltState opcode address s).remainingCycles = s.remainingCycles := rfl
@[simp] theorem haltState_halted (opcode : Byte) (address : Word) (s : State) : (haltState opcode address s).halted = some { opcode := opcode, address := address } := rfl
@[simp] theorem haltState_resetDone (opcode : Byte) (address : Word) (s : State) : (haltState opcode address s).resetDone = s.resetDone := rfl
@[simp] theorem haltState_mem (opcode : Byte) (address : Word) (s : State) : (haltState opcode address s).mem = s.mem := rfl
@[simp] theorem haltState_hostCalls (opcode : Byte) (address : Word) (s : State) : (haltState opcode address s).hostCalls = s.hostCalls := rfl

/-! #### cpuReset -/

@[simp] theorem cpuReset_a (s : State) : (cpuReset s).a = 0x00 := rfl
@[simp] theorem cpuReset_x (s : State) : (cpuReset s).x = 0x00 := rfl
@[simp] theorem cpuReset_y (s : State) : (cpuReset s).y = 0x00 := rfl
@[simp] theorem cpuReset_sp (s : State) : (cpuReset s).sp = 0xFF := rfl
@[simp] theorem cpuReset_pc (s : State) : (cpuReset s).pc = memRead16 s resetVector := rfl
@[simp] theorem cpuReset_p (s : State) : (cpuReset s).p = Flags.reset := rfl
@[simp] theorem cpuReset_operandAddress (s : State) : (cpuReset s).operandAddress = 0x0000 := rfl
@[simp] theorem cpuReset_relativeOffset (s : State) : (cpuReset s).relativeOffset = 0x0000 := rfl
@[simp] theorem cpuReset_remainingCycles (s : State) : (cpuReset s).remainingCycles = Config.resetCycles := rfl
@[simp] theorem cpuReset_halted (s : State) : (cpuReset s).halted = s.halted := rfl
@[simp] theorem cpuReset_resetDone (s : State) : (cpuReset s).resetDone = true := rfl
@[simp] theorem cpuReset_mem (s : State) : (cpuReset s).mem = s.mem := rfl
@[simp] theorem cpuReset_hostCalls (s : State) : (cpuReset s).hostCalls = s.hostCalls := rfl

end Sys2Proof.Machine
end

