-- ==== Sys2Proof/Laws/Exec.lean ====
section
/-! SUPPORT. What an instruction can do, said once: every documented instruction is one run of its dispatch entry
(`exec_eq_runEntry`), a run answers one next state (`runEntry_eq`), and a semantic leaves alone the state that no instruction
touches (`semOf_keeps`). -/

namespace Sys2Proof.Machine

/-- The semantic of a mnemonic: the column "instruction semantic function" of the dispatch table (R106, R131). -/
def semOf : Mnemonic → Operand → State → Effect
  | .adc => semAdc
  | .sbc => semSbc
  | .cmp => semCmp
  | .cpx => semCpx
  | .cpy => semCpy
  | .asl => semAsl
  | .lsr => semLsr
  | .rol => semRol
  | .ror => semRor
  | .bcc => semBcc
  | .bcs => semBcs
  | .beq => semBeq
  | .bmi => semBmi
  | .bne => semBne
  | .bpl => semBpl
  | .bvc => semBvc
  | .bvs => semBvs
  | .jmp => semJmp
  | .jsr => semJsr
  | .rts => semRts
  | .brk => semBrk
  | .rti => semRti
  | .pha => semPha
  | .php => semPhp
  | .pla => semPla
  | .plp => semPlp
  | .lda => semLda
  | .ldx => semLdx
  | .ldy => semLdy
  | .sta => semSta
  | .stx => semStx
  | .sty => semSty
  | .tax => semTax
  | .tay => semTay
  | .txa => semTxa
  | .tya => semTya
  | .tsx => semTsx
  | .txs => semTxs
  | .and => semAnd
  | .ora => semOra
  | .eor => semEor
  | .bit => semBit
  | .inc => semInc
  | .dec => semDec
  | .inx => semInx
  | .iny => semIny
  | .dex => semDex
  | .dey => semDey
  | .clc => semClc
  | .cld => semCld
  | .cli => semCli
  | .clv => semClv
  | .sec => semSec
  | .sed => semSed
  | .sei => semSei
  | .nop => semNop
  | .unimplemented => fun _ s => plain s

/-- Every documented instruction is one run of its dispatch entry {semantic, mode, base} (R131). -/
theorem exec_eq_runEntry (i : Instr) (s : State) (h : i.mnemonic ≠ .unimplemented) :
    exec i s = runEntry i.opcode i.operand (semOf i.mnemonic) s := by
  cases i
  case unimplemented => exact absurd rfl h
  all_goals rfl

/-- The fatal entry faults with the opcode and PC (R138). -/
theorem exec_unimplemented (op : Byte) (s : State) :
    exec (.unimplemented op) s = .fault (.unimplementedOpcode op s.pc) := rfl

/-- A run of a dispatch entry answers one next state (R130, R132). -/
theorem runEntry_eq (op : Byte) (o : Operand) (sem : Operand → State → Effect) (s : State) :
    runEntry op o sem s = .next
      { (sem o (fetched o s)).state with
        remainingCycles :=
          baseCycles op + (if pageCross o { s with pc := s.pc + 1 } && (sem o (fetched o s)).pen then 1 else 0) +
            (sem o (fetched o s)).br } := rfl

/-- If an instruction answers a next state, it is documented and the state is its semantic's, with its duration. -/
theorem exec_next {i : Instr} {s t : State} (h : exec i s = .next t) :
    i.mnemonic ≠ .unimplemented ∧
    t = { (semOf i.mnemonic i.operand (fetched i.operand s)).state with
          remainingCycles :=
            baseCycles i.opcode +
              (if pageCross i.operand { s with pc := s.pc + 1 } &&
                  (semOf i.mnemonic i.operand (fetched i.operand s)).pen then 1 else 0) +
              (semOf i.mnemonic i.operand (fetched i.operand s)).br } := by
  have hd : i.mnemonic ≠ .unimplemented := by
    intro hm
    cases i
    case unimplemented => simp [exec_unimplemented] at h
    all_goals cases hm
  rw [exec_eq_runEntry i s hd, runEntry_eq] at h
  exact ⟨hd, (Host.Outcome.next.inj h).symm⟩

/-- What no semantic touches: halted, reset_done, the host's script, PRG-ROM, and the two items the resolver set. -/
theorem semOf_keeps (m : Mnemonic) (o : Operand) (s : State) :
    (semOf m o s).state.halted = s.halted ∧ (semOf m o s).state.resetDone = s.resetDone ∧
    (semOf m o s).state.hostCalls = s.hostCalls ∧ (semOf m o s).state.operandAddress = s.operandAddress ∧
    (semOf m o s).state.relativeOffset = s.relativeOffset := by
  cases m
  case bcc | bcs | beq | bmi | bne | bpl | bvc | bvs =>
    simp only [semOf, semBcc, semBcs, semBeq, semBmi, semBne, semBpl, semBvc, semBvs, branch]
    split <;> simp [plain]
  all_goals simp [semOf,
    semAdc, semSbc, semCmp, semCpx, semCpy, semAsl, semLsr, semRol, semRor, semJmp, semJsr, semRts, semBrk, semRti,
    semPha, semPhp, semPla, semPlp, semLda, semLdx, semLdy, semSta, semStx, semSty, semTax, semTay, semTxa, semTya,
    semTsx, semTxs, semAnd, semOra, semEor, semBit, semInc, semDec, semInx, semIny, semDex, semDey, semClc, semCld,
    semCli, semClv, semSec, semSed, semSei, semNop,
    penal, plain, shiftResult, logicalResult]

/-- The memory a semantic leaves is the memory before it, or that after Bus writes. -/
inductive WrittenFrom (m : Memory) : Memory → Prop where
  | same : WrittenFrom m m
  | write (n : Memory) (addr : Word) (v : Byte) : WrittenFrom m n → WrittenFrom m (busWrite n addr v)

theorem semOf_mem (m : Mnemonic) (o : Operand) (s : State) : WrittenFrom s.mem (semOf m o s).state.mem := by
  have one (addr : Word) (v : Byte) : WrittenFrom s.mem (busWrite s.mem addr v) := .write _ _ _ .same
  cases m
  all_goals first
    | exact .same
    | exact one _ _
    | exact .write _ _ _ (one _ _)
    | exact .write _ _ _ (.write _ _ _ (one _ _))
    | (cases o <;> first | exact .same | exact one _ _)
    | (simp only [semOf, semBcc, semBcs, semBeq, semBmi, semBne, semBpl, semBvc, semBvs, branch]
       split <;> exact .same)

/-- Bus writes keep the canonical form and PRG-ROM. -/
theorem WrittenFrom.keeps {m n : Memory} (h : WrittenFrom m n) :
    (m.wf = true → n.wf = true) ∧ n.prg = m.prg ∧ n.prgSize = m.prgSize := by
  induction h with
  | same => exact ⟨id, rfl, rfl⟩
  | write n addr v _ ih => exact ⟨fun hm => busWrite_wf addr v (ih.1 hm), by simp [ih.2.1], by simp [ih.2.2]⟩

/-- Bus writes change nothing that is read outside RAM: the vectors, code in PRG-ROM, the stubs. -/
theorem WrittenFrom.busRead_outside {m n : Memory} (h : WrittenFrom m n) {b : Word} (hb : inRam b = false) :
    busRead n b = busRead m b := by
  induction h with
  | same => rfl
  | write n addr v _ ih => rw [busRead_busWrite_outside hb, ih]

/-- Base cycle counts of documented instructions are at least 2 (R106). -/
theorem two_le_baseCycles (i : Instr) (h : i.mnemonic ≠ .unimplemented) : 2 ≤ baseCycles i.opcode := by
  cases i
  case unimplemented => exact absurd rfl h
  all_goals
    simp only [Instr.opcode, encode, List.headD_cons]
    decide

end Sys2Proof.Machine
end

