-- ==== Sys2Proof/Laws/Engine.lean ====
section
/-! SUPPORT. Laws of the engine: that the fetch reads what the decoder decodes, and everything a `clock()`, a host call and a
step can do. -/

namespace Sys2Proof.Machine

/-- The fetch and the decoder agree: bytes that decode to an instruction, lying at an address, are that instruction there. -/
theorem instrAt_of_decode {m : Memory} {addr : Word} {bytes rest : List Byte} {i : Instr}
    (hb : ∀ k (h : k < bytes.length), bytes[k] = busRead m (addr + BitVec.ofNat 16 k))
    (hd : decode bytes = .ok (i, rest)) : instrAt m addr = i := by
  obtain ⟨op, ⟨hm, rfl⟩ | ⟨k, b, hm, rfl, rfl⟩ | ⟨k, l, h, hm, rfl, rfl⟩⟩ := decode_ok_iff.mp hd
  · have h0 : op = busRead m addr := (hb 0 (by simp)).trans (by simp)
    simp [instrAt, ← h0, hm]
  · have h0 : op = busRead m addr := (hb 0 (by simp)).trans (by simp)
    have h1 : b = busRead m (addr + 1) := (hb 1 (by simp)).trans rfl
    simp only [instrAt, ← h0, ← h1, hm]
  · have h0 : op = busRead m addr := (hb 0 (by simp)).trans (by simp)
    have h1 : l = busRead m (addr + 1) := (hb 1 (by simp)).trans rfl
    have h2 : h = busRead m (addr + 2) := (hb 2 (by simp)).trans rfl
    simp only [instrAt, ← h0, ← h1, ← h2, hm]

/-- Everything a `clock()` can do (R130): count down, run an instruction and count down, or stop as the instruction stops. -/
theorem clock_cases (s : State) :
    (s.remainingCycles ≠ 0 ∧ clock s = .next (countDown s)) ∨
    (s.remainingCycles = 0 ∧ ∃ t, exec (instrAt s.mem s.pc) s = .next t ∧ clock s = .next (countDown t)) ∨
    (s.remainingCycles = 0 ∧ ∃ f, exec (instrAt s.mem s.pc) s = .fault f ∧ clock s = .fault f) ∨
    (s.remainingCycles = 0 ∧ ∃ r, exec (instrAt s.mem s.pc) s = .refused r ∧ clock s = .refused r) := by
  by_cases h : s.remainingCycles = 0
  · cases he : exec (instrAt s.mem s.pc) s with
    | next t => exact .inr (.inl ⟨h, t, rfl, by simp [clock, h, he]⟩)
    | fault f => exact .inr (.inr (.inl ⟨h, f, rfl, by simp [clock, h, he]⟩))
    | refused r => exact .inr (.inr (.inr ⟨h, r, rfl, by simp [clock, h, he]⟩))
  · exact .inl ⟨h, by simp [clock, h]⟩

/-- After reset a getter of a block that is not halted answers its value (R278). -/
theorem readGetter_ok {s : State} (hh : s.halted = none) (hr : s.resetDone = true) (g : Getter) :
    readGetter g s = .ok (getterValue g s) := by
  simp [readGetter, hh, hr]

/-- A call of a running block is not refused for its precondition: it is the call itself (R278). -/
theorem hostCall_running {s : State} (h : Running s) (call : HostCall) :
    hostCall call s = match call with
      | .reset => .next (cpuReset s)
      | .clock => clock s
      | .irq => .next (cpuIrq s)
      | .nmi => .next (cpuNmi s)
      | .getter _ => .next s
      | .busRead _ => .next s
      | .busWrite addr v => .next (memWrite addr v s)
      | .disassemble _ => .next s := by
  cases call <;> simp [hostCall, afterReset, h.1, h.2]

/-- When halted every call is refused (R138, R140). -/
theorem hostCall_halted {s : State} (h : s.halted.isSome = true) (call : HostCall) :
    hostCall call s = .refused .haltedBlock := by
  simp [hostCall, h]

/-- A step with an empty script is a `clock()` call. -/
theorem step_of_nil {s : State} (h : s.hostCalls = []) : step s = hostCall .clock s := by
  simp [step, h]

/-- A step with a script is its first call. -/
theorem step_of_cons {s : State} {call : HostCall} {rest : List HostCall} (h : s.hostCalls = call :: rest) :
    step s = hostCall call { s with hostCalls := rest } := by
  simp [step, h]

end Sys2Proof.Machine
end

