-- ==== Sys2Proof/Laws/Ops.lean ====
section
/-! SUPPORT. Laws of the stack primitives and of interrupt entry and return. -/

namespace Sys2Proof.Machine

/-- A stack byte pulled after a push of another, or of the same, SP (R30, R31). -/
theorem memRead_push (v : Byte) (s : State) (sp : Byte) :
    memRead (push v s) (stackAddress sp) = if sp = s.sp then v else memRead s (stackAddress sp) := by
  simp [memRead, busRead_stack]

/-- Pull returns what the last Push pushed (R30, R31). -/
@[simp] theorem pullByte_push (v : Byte) (s : State) : pullByte (push v s) = v := by
  simp [pullByte, memRead_push]

/-- Pushes do not change what is read outside RAM. -/
theorem memRead_push_outside {addr : Word} (h : inRam addr = false) (v : Byte) (s : State) :
    memRead (push v s) addr = memRead s addr := by
  simp [memRead, busRead_busWrite_outside h]

/-- The three bytes interrupt entry pushes, as RTI will pull them (R194, R262). -/
theorem interruptEntry_frame (vector : Word) (b : Bool) (s : State) :
    memRead (interruptEntry vector b s) (stackAddress s.sp) = hi s.pc ∧
    memRead (interruptEntry vector b s) (stackAddress (s.sp - 1)) = lo s.pc ∧
    memRead (interruptEntry vector b s) (stackAddress (s.sp - 1 - 1)) = entryStatus b s.p := by
  have h1 : s.sp ≠ s.sp - 1 := by bv_omega
  have h2 : s.sp ≠ s.sp - 1 - 1 := by bv_omega
  have h3 : s.sp - 1 ≠ s.sp - 1 - 1 := by bv_omega
  have mem : (interruptEntry vector b s).mem =
      (push (entryStatus b s.p) (push (lo s.pc) (push (hi s.pc) s))).mem := rfl
  refine ⟨?_, ?_, ?_⟩ <;>
    simp only [memRead, mem, push_mem, push_sp, busRead_stack, if_neg h1, if_neg h2, if_neg h3, if_true]

end Sys2Proof.Machine
end

