-- ==== Sys2Proof/Laws/PerInstr.lean ====
section
/-! SUPPORT. Laws of the syntax made per instruction: one lemma a constructor of `Instr`. The family EncodedSize says that the
encoding of an instruction is as long as the size of its mode (30_encoding.md R90, R91). -/

/-- The encoding is as long as the mode's size (R90). -/
def Sys2Proof.Laws.EncodedSize.Statement (i : Sys2Proof.Instr) : Prop :=
  (Sys2Proof.encode i).length = i.size

namespace Sys2Proof.Laws.EncodedSize

theorem adcImm (v : Byte) : Statement (.adcImm v) := rfl
theorem adcZp0 (zp : Byte) : Statement (.adcZp0 zp) := rfl
theorem adcZpx (zp : Byte) : Statement (.adcZpx zp) := rfl
theorem adcAbs (addr : Word) : Statement (.adcAbs addr) := rfl
theorem adcAbx (addr : Word) : Statement (.adcAbx addr) := rfl
theorem adcAby (addr : Word) : Statement (.adcAby addr) := rfl
theorem adcIzx (zp : Byte) : Statement (.adcIzx zp) := rfl
theorem adcIzy (zp : Byte) : Statement (.adcIzy zp) := rfl
theorem sbcImm (v : Byte) : Statement (.sbcImm v) := rfl
theorem sbcZp0 (zp : Byte) : Statement (.sbcZp0 zp) := rfl
theorem sbcZpx (zp : Byte) : Statement (.sbcZpx zp) := rfl
theorem sbcAbs (addr : Word) : Statement (.sbcAbs addr) := rfl
theorem sbcAbx (addr : Word) : Statement (.sbcAbx addr) := rfl
theorem sbcAby (addr : Word) : Statement (.sbcAby addr) := rfl
theorem sbcIzx (zp : Byte) : Statement (.sbcIzx zp) := rfl
theorem sbcIzy (zp : Byte) : Statement (.sbcIzy zp) := rfl
theorem cmpImm (v : Byte) : Statement (.cmpImm v) := rfl
theorem cmpZp0 (zp : Byte) : Statement (.cmpZp0 zp) := rfl
theorem cmpZpx (zp : Byte) : Statement (.cmpZpx zp) := rfl
theorem cmpAbs (addr : Word) : Statement (.cmpAbs addr) := rfl
theorem cmpAbx (addr : Word) : Statement (.cmpAbx addr) := rfl
theorem cmpAby (addr : Word) : Statement (.cmpAby addr) := rfl
theorem cmpIzx (zp : Byte) : Statement (.cmpIzx zp) := rfl
theorem cmpIzy (zp : Byte) : Statement (.cmpIzy zp) := rfl
theorem cpxImm (v : Byte) : Statement (.cpxImm v) := rfl
theorem cpxZp0 (zp : Byte) : Statement (.cpxZp0 zp) := rfl
theorem cpxAbs (addr : Word) : Statement (.cpxAbs addr) := rfl
theorem cpyImm (v : Byte) : Statement (.cpyImm v) := rfl
theorem cpyZp0 (zp : Byte) : Statement (.cpyZp0 zp) := rfl
theorem cpyAbs (addr : Word) : Statement (.cpyAbs addr) := rfl
theorem aslAcc : Statement .aslAcc := rfl
theorem aslZp0 (zp : Byte) : Statement (.aslZp0 zp) := rfl
theorem aslZpx (zp : Byte) : Statement (.aslZpx zp) := rfl
theorem aslAbs (addr : Word) : Statement (.aslAbs addr) := rfl
theorem aslAbx (addr : Word) : Statement (.aslAbx addr) := rfl
theorem lsrAcc : Statement .lsrAcc := rfl
theorem lsrZp0 (zp : Byte) : Statement (.lsrZp0 zp) := rfl
theorem lsrZpx (zp : Byte) : Statement (.lsrZpx zp) := rfl
theorem lsrAbs (addr : Word) : Statement (.lsrAbs addr) := rfl
theorem lsrAbx (addr : Word) : Statement (.lsrAbx addr) := rfl
theorem rolAcc : Statement .rolAcc := rfl
theorem rolZp0 (zp : Byte) : Statement (.rolZp0 zp) := rfl
theorem rolZpx (zp : Byte) : Statement (.rolZpx zp) := rfl
theorem rolAbs (addr : Word) : Statement (.rolAbs addr) := rfl
theorem rolAbx (addr : Word) : Statement (.rolAbx addr) := rfl
theorem rorAcc : Statement .rorAcc := rfl
theorem rorZp0 (zp : Byte) : Statement (.rorZp0 zp) := rfl
theorem rorZpx (zp : Byte) : Statement (.rorZpx zp) := rfl
theorem rorAbs (addr : Word) : Statement (.rorAbs addr) := rfl
theorem rorAbx (addr : Word) : Statement (.rorAbx addr) := rfl
theorem bcc (disp : Byte) : Statement (.bcc disp) := rfl
theorem bcs (disp : Byte) : Statement (.bcs disp) := rfl
theorem beq (disp : Byte) : Statement (.beq disp) := rfl
theorem bmi (disp : Byte) : Statement (.bmi disp) := rfl
theorem bne (disp : Byte) : Statement (.bne disp) := rfl
theorem bpl (disp : Byte) : Statement (.bpl disp) := rfl
theorem bvc (disp : Byte) : Statement (.bvc disp) := rfl
theorem bvs (disp : Byte) : Statement (.bvs disp) := rfl
theorem jmpAbs (addr : Word) : Statement (.jmpAbs addr) := rfl
theorem jmpInd (addr : Word) : Statement (.jmpInd addr) := rfl
theorem jsr (addr : Word) : Statement (.jsr addr) := rfl
theorem rts : Statement .rts := rfl
theorem brk : Statement .brk := rfl
theorem rti : Statement .rti := rfl
theorem pha : Statement .pha := rfl
theorem php : Statement .php := rfl
theorem pla : Statement .pla := rfl
theorem plp : Statement .plp := rfl
theorem ldaImm (v : Byte) : Statement (.ldaImm v) := rfl
theorem ldaZp0 (zp : Byte) : Statement (.ldaZp0 zp) := rfl
theorem ldaZpx (zp : Byte) : Statement (.ldaZpx zp) := rfl
theorem ldaAbs (addr : Word) : Statement (.ldaAbs addr) := rfl
theorem ldaAbx (addr : Word) : Statement (.ldaAbx addr) := rfl
theorem ldaAby (addr : Word) : Statement (.ldaAby addr) := rfl
theorem ldaIzx (zp : Byte) : Statement (.ldaIzx zp) := rfl
theorem ldaIzy (zp : Byte) : Statement (.ldaIzy zp) := rfl
theorem ldxImm (v : Byte) : Statement (.ldxImm v) := rfl
theorem ldxZp0 (zp : Byte) : Statement (.ldxZp0 zp) := rfl
theorem ldxZpy (zp : Byte) : Statement (.ldxZpy zp) := rfl
theorem ldxAbs (addr : Word) : Statement (.ldxAbs addr) := rfl
theorem ldxAby (addr : Word) : Statement (.ldxAby addr) := rfl
theorem ldyImm (v : Byte) : Statement (.ldyImm v) := rfl
theorem ldyZp0 (zp : Byte) : Statement (.ldyZp0 zp) := rfl
theorem ldyZpx (zp : Byte) : Statement (.ldyZpx zp) := rfl
theorem ldyAbs (addr : Word) : Statement (.ldyAbs addr) := rfl
theorem ldyAbx (addr : Word) : Statement (.ldyAbx addr) := rfl
theorem staZp0 (zp : Byte) : Statement (.staZp0 zp) := rfl
theorem staZpx (zp : Byte) : Statement (.staZpx zp) := rfl
theorem staAbs (addr : Word) : Statement (.staAbs addr) := rfl
theorem staAbx (addr : Word) : Statement (.staAbx addr) := rfl
theorem staAby (addr : Word) : Statement (.staAby addr) := rfl
theorem staIzx (zp : Byte) : Statement (.staIzx zp) := rfl
theorem staIzy (zp : Byte) : Statement (.staIzy zp) := rfl
theorem stxZp0 (zp : Byte) : Statement (.stxZp0 zp) := rfl
theorem stxZpy (zp : Byte) : Statement (.stxZpy zp) := rfl
theorem stxAbs (addr : Word) : Statement (.stxAbs addr) := rfl
theorem styZp0 (zp : Byte) : Statement (.styZp0 zp) := rfl
theorem styZpx (zp : Byte) : Statement (.styZpx zp) := rfl
theorem styAbs (addr : Word) : Statement (.styAbs addr) := rfl
theorem tax : Statement .tax := rfl
theorem tay : Statement .tay := rfl
theorem txa : Statement .txa := rfl
theorem tya : Statement .tya := rfl
theorem tsx : Statement .tsx := rfl
theorem txs : Statement .txs := rfl
theorem andImm (v : Byte) : Statement (.andImm v) := rfl
theorem andZp0 (zp : Byte) : Statement (.andZp0 zp) := rfl
theorem andZpx (zp : Byte) : Statement (.andZpx zp) := rfl
theorem andAbs (addr : Word) : Statement (.andAbs addr) := rfl
theorem andAbx (addr : Word) : Statement (.andAbx addr) := rfl
theorem andAby (addr : Word) : Statement (.andAby addr) := rfl
theorem andIzx (zp : Byte) : Statement (.andIzx zp) := rfl
theorem andIzy (zp : Byte) : Statement (.andIzy zp) := rfl
theorem oraImm (v : Byte) : Statement (.oraImm v) := rfl
theorem oraZp0 (zp : Byte) : Statement (.oraZp0 zp) := rfl
theorem oraZpx (zp : Byte) : Statement (.oraZpx zp) := rfl
theorem oraAbs (addr : Word) : Statement (.oraAbs addr) := rfl
theorem oraAbx (addr : Word) : Statement (.oraAbx addr) := rfl
theorem oraAby (addr : Word) : Statement (.oraAby addr) := rfl
theorem oraIzx (zp : Byte) : Statement (.oraIzx zp) := rfl
theorem oraIzy (zp : Byte) : Statement (.oraIzy zp) := rfl
theorem eorImm (v : Byte) : Statement (.eorImm v) := rfl
theorem eorZp0 (zp : Byte) : Statement (.eorZp0 zp) := rfl
theorem eorZpx (zp : Byte) : Statement (.eorZpx zp) := rfl
theorem eorAbs (addr : Word) : Statement (.eorAbs addr) := rfl
theorem eorAbx (addr : Word) : Statement (.eorAbx addr) := rfl
theorem eorAby (addr : Word) : Statement (.eorAby addr) := rfl
theorem eorIzx (zp : Byte) : Statement (.eorIzx zp) := rfl
theorem eorIzy (zp : Byte) : Statement (.eorIzy zp) := rfl
theorem bitZp0 (zp : Byte) : Statement (.bitZp0 zp) := rfl
theorem bitAbs (addr : Word) : Statement (.bitAbs addr) := rfl
theorem incZp0 (zp : Byte) : Statement (.incZp0 zp) := rfl
theorem incZpx (zp : Byte) : Statement (.incZpx zp) := rfl
theorem incAbs (addr : Word) : Statement (.incAbs addr) := rfl
theorem incAbx (addr : Word) : Statement (.incAbx addr) := rfl
theorem decZp0 (zp : Byte) : Statement (.decZp0 zp) := rfl
theorem decZpx (zp : Byte) : Statement (.decZpx zp) := rfl
theorem decAbs (addr : Word) : Statement (.decAbs addr) := rfl
theorem decAbx (addr : Word) : Statement (.decAbx addr) := rfl
theorem inx : Statement .inx := rfl
theorem iny : Statement .iny := rfl
theorem dex : Statement .dex := rfl
theorem dey : Statement .dey := rfl
theorem clc : Statement .clc := rfl
theorem cld : Statement .cld := rfl
theorem cli : Statement .cli := rfl
theorem clv : Statement .clv := rfl
theorem sec : Statement .sec := rfl
theorem sed : Statement .sed := rfl
theorem sei : Statement .sei := rfl
theorem nop : Statement .nop := rfl
theorem unimplemented (opcode : Byte) : Statement (.unimplemented opcode) := rfl

end Sys2Proof.Laws.EncodedSize
end

