-- ==== Sys2Proof/Tests/Slice0.lean ====
section
/-! SUPPORT. Tests: one instruction word of every constructor, written out from the Encoding lines of the instruction rules; the
vectors of 95_test_vectors.md, each one step; and for every statement of Obligations.lean that has hypotheses a concrete state
and operands that meet them (`witness_…`). The expected results are those of the spec. -/

namespace Sys2Proof.Tests

open Sys2Proof.Machine Sys2Proof.Spec

/-! ### Well-formedness (30_encoding.md R106, R107) -/

/-- The one check: `unimplemented` names an illegal byte. 0x69 is ADC IMM. -/
theorem test_wf_refuses_documented_byte_as_unimplemented : Instr.wf (.unimplemented 0x69) = false := by
  decide

theorem test_wf_admits_illegal_byte : Instr.wf (.unimplemented 0x02) = true ∧ Instr.wf (.adcImm 0xFF) = true := by
  decide

/-! ### Decoding: the opcode bytes are those of the Encoding lines, operands little-endian (R90, R92) -/

theorem test_decode_arithmetic_1 :
    List.map decode
      [[0x69, 0xC3, 0x77],
       [0x65, 0xC3, 0x77],
       [0x75, 0xC3, 0x77],
       [0x6D, 0x34, 0xC2, 0x77],
       [0x7D, 0x34, 0xC2, 0x77],
       [0x79, 0x34, 0xC2, 0x77],
       [0x61, 0xC3, 0x77],
       [0x71, 0xC3, 0x77],
       [0xE9, 0xC3, 0x77],
       [0xE5, 0xC3, 0x77],
       [0xF5, 0xC3, 0x77],
       [0xED, 0x34, 0xC2, 0x77]] =
      [.ok (.adcImm 0xC3, [0x77]),
       .ok (.adcZp0 0xC3, [0x77]),
       .ok (.adcZpx 0xC3, [0x77]),
       .ok (.adcAbs 0xC234, [0x77]),
       .ok (.adcAbx 0xC234, [0x77]),
       .ok (.adcAby 0xC234, [0x77]),
       .ok (.adcIzx 0xC3, [0x77]),
       .ok (.adcIzy 0xC3, [0x77]),
       .ok (.sbcImm 0xC3, [0x77]),
       .ok (.sbcZp0 0xC3, [0x77]),
       .ok (.sbcZpx 0xC3, [0x77]),
       .ok (.sbcAbs 0xC234, [0x77])] := by
  decide

theorem test_decode_arithmetic_2 :
    List.map decode
      [[0xFD, 0x34, 0xC2, 0x77],
       [0xF9, 0x34, 0xC2, 0x77],
       [0xE1, 0xC3, 0x77],
       [0xF1, 0xC3, 0x77],
       [0xC9, 0xC3, 0x77],
       [0xC5, 0xC3, 0x77],
       [0xD5, 0xC3, 0x77],
       [0xCD, 0x34, 0xC2, 0x77],
       [0xDD, 0x34, 0xC2, 0x77],
       [0xD9, 0x34, 0xC2, 0x77],
       [0xC1, 0xC3, 0x77],
       [0xD1, 0xC3, 0x77]] =
      [.ok (.sbcAbx 0xC234, [0x77]),
       .ok (.sbcAby 0xC234, [0x77]),
       .ok (.sbcIzx 0xC3, [0x77]),
       .ok (.sbcIzy 0xC3, [0x77]),
       .ok (.cmpImm 0xC3, [0x77]),
       .ok (.cmpZp0 0xC3, [0x77]),
       .ok (.cmpZpx 0xC3, [0x77]),
       .ok (.cmpAbs 0xC234, [0x77]),
       .ok (.cmpAbx 0xC234, [0x77]),
       .ok (.cmpAby 0xC234, [0x77]),
       .ok (.cmpIzx 0xC3, [0x77]),
       .ok (.cmpIzy 0xC3, [0x77])] := by
  decide

theorem test_decode_arithmetic_3 :
    List.map decode
      [[0xE0, 0xC3, 0x77],
       [0xE4, 0xC3, 0x77],
       [0xEC, 0x34, 0xC2, 0x77],
       [0xC0, 0xC3, 0x77],
       [0xC4, 0xC3, 0x77],
       [0xCC, 0x34, 0xC2, 0x77]] =
      [.ok (.cpxImm 0xC3, [0x77]),
       .ok (.cpxZp0 0xC3, [0x77]),
       .ok (.cpxAbs 0xC234, [0x77]),
       .ok (.cpyImm 0xC3, [0x77]),
       .ok (.cpyZp0 0xC3, [0x77]),
       .ok (.cpyAbs 0xC234, [0x77])] := by
  decide

theorem test_decode_shifts_1 :
    List.map decode
      [[0x0A, 0x77],
       [0x06, 0xC3, 0x77],
       [0x16, 0xC3, 0x77],
       [0x0E, 0x34, 0xC2, 0x77],
       [0x1E, 0x34, 0xC2, 0x77],
       [0x4A, 0x77],
       [0x46, 0xC3, 0x77],
       [0x56, 0xC3, 0x77],
       [0x4E, 0x34, 0xC2, 0x77],
       [0x5E, 0x34, 0xC2, 0x77],
       [0x2A, 0x77],
       [0x26, 0xC3, 0x77]] =
      [.ok (.aslAcc, [0x77]),
       .ok (.aslZp0 0xC3, [0x77]),
       .ok (.aslZpx 0xC3, [0x77]),
       .ok (.aslAbs 0xC234, [0x77]),
       .ok (.aslAbx 0xC234, [0x77]),
       .ok (.lsrAcc, [0x77]),
       .ok (.lsrZp0 0xC3, [0x77]),
       .ok (.lsrZpx 0xC3, [0x77]),
       .ok (.lsrAbs 0xC234, [0x77]),
       .ok (.lsrAbx 0xC234, [0x77]),
       .ok (.rolAcc, [0x77]),
       .ok (.rolZp0 0xC3, [0x77])] := by
  decide

theorem test_decode_shifts_2 :
    List.map decode
      [[0x36, 0xC3, 0x77],
       [0x2E, 0x34, 0xC2, 0x77],
       [0x3E, 0x34, 0xC2, 0x77],
       [0x6A, 0x77],
       [0x66, 0xC3, 0x77],
       [0x76, 0xC3, 0x77],
       [0x6E, 0x34, 0xC2, 0x77],
       [0x7E, 0x34, 0xC2, 0x77]] =
      [.ok (.rolZpx 0xC3, [0x77]),
       .ok (.rolAbs 0xC234, [0x77]),
       .ok (.rolAbx 0xC234, [0x77]),
       .ok (.rorAcc, [0x77]),
       .ok (.rorZp0 0xC3, [0x77]),
       .ok (.rorZpx 0xC3, [0x77]),
       .ok (.rorAbs 0xC234, [0x77]),
       .ok (.rorAbx 0xC234, [0x77])] := by
  decide

theorem test_decode_branches :
    List.map decode
      [[0x90, 0xC3, 0x77],
       [0xB0, 0xC3, 0x77],
       [0xF0, 0xC3, 0x77],
       [0x30, 0xC3, 0x77],
       [0xD0, 0xC3, 0x77],
       [0x10, 0xC3, 0x77],
       [0x50, 0xC3, 0x77],
       [0x70, 0xC3, 0x77]] =
      [.ok (.bcc 0xC3, [0x77]),
       .ok (.bcs 0xC3, [0x77]),
       .ok (.beq 0xC3, [0x77]),
       .ok (.bmi 0xC3, [0x77]),
       .ok (.bne 0xC3, [0x77]),
       .ok (.bpl 0xC3, [0x77]),
       .ok (.bvc 0xC3, [0x77]),
       .ok (.bvs 0xC3, [0x77])] := by
  decide

theorem test_decode_jumps :
    List.map decode
      [[0x4C, 0x34, 0xC2, 0x77],
       [0x6C, 0x34, 0xC2, 0x77],
       [0x20, 0x34, 0xC2, 0x77],
       [0x60, 0x77],
       [0x00, 0x77],
       [0x40, 0x77]] =
      [.ok (.jmpAbs 0xC234, [0x77]),
       .ok (.jmpInd 0xC234, [0x77]),
       .ok (.jsr 0xC234, [0x77]),
       .ok (.rts, [0x77]),
       .ok (.brk, [0x77]),
       .ok (.rti, [0x77])] := by
  decide

theorem test_decode_stack :
    List.map decode
      [[0x48, 0x77],
       [0x08, 0x77],
       [0x68, 0x77],
       [0x28, 0x77]] =
      [.ok (.pha, [0x77]),
       .ok (.php, [0x77]),
       .ok (.pla, [0x77]),
       .ok (.plp, [0x77])] := by
  decide

theorem test_decode_loads_1 :
    List.map decode
      [[0xA9, 0xC3, 0x77],
       [0xA5, 0xC3, 0x77],
       [0xB5, 0xC3, 0x77],
       [0xAD, 0x34, 0xC2, 0x77],
       [0xBD, 0x34, 0xC2, 0x77],
       [0xB9, 0x34, 0xC2, 0x77],
       [0xA1, 0xC3, 0x77],
       [0xB1, 0xC3, 0x77],
       [0xA2, 0xC3, 0x77],
       [0xA6, 0xC3, 0x77],
       [0xB6, 0xC3, 0x77],
       [0xAE, 0x34, 0xC2, 0x77]] =
      [.ok (.ldaImm 0xC3, [0x77]),
       .ok (.ldaZp0 0xC3, [0x77]),
       .ok (.ldaZpx 0xC3, [0x77]),
       .ok (.ldaAbs 0xC234, [0x77]),
       .ok (.ldaAbx 0xC234, [0x77]),
       .ok (.ldaAby 0xC234, [0x77]),
       .ok (.ldaIzx 0xC3, [0x77]),
       .ok (.ldaIzy 0xC3, [0x77]),
       .ok (.ldxImm 0xC3, [0x77]),
       .ok (.ldxZp0 0xC3, [0x77]),
       .ok (.ldxZpy 0xC3, [0x77]),
       .ok (.ldxAbs 0xC234, [0x77])] := by
  decide

theorem test_decode_loads_2 :
    List.map decode
      [[0xBE, 0x34, 0xC2, 0x77],
       [0xA0, 0xC3, 0x77],
       [0xA4, 0xC3, 0x77],
       [0xB4, 0xC3, 0x77],
       [0xAC, 0x34, 0xC2, 0x77],
       [0xBC, 0x34, 0xC2, 0x77]] =
      [.ok (.ldxAby 0xC234, [0x77]),
       .ok (.ldyImm 0xC3, [0x77]),
       .ok (.ldyZp0 0xC3, [0x77]),
       .ok (.ldyZpx 0xC3, [0x77]),
       .ok (.ldyAbs 0xC234, [0x77]),
       .ok (.ldyAbx 0xC234, [0x77])] := by
  decide

theorem test_decode_stores_1 :
    List.map decode
      [[0x85, 0xC3, 0x77],
       [0x95, 0xC3, 0x77],
       [0x8D, 0x34, 0xC2, 0x77],
       [0x9D, 0x34, 0xC2, 0x77],
       [0x99, 0x34, 0xC2, 0x77],
       [0x81, 0xC3, 0x77],
       [0x91, 0xC3, 0x77],
       [0x86, 0xC3, 0x77],
       [0x96, 0xC3, 0x77],
       [0x8E, 0x34, 0xC2, 0x77],
       [0x84, 0xC3, 0x77],
       [0x94, 0xC3, 0x77]] =
      [.ok (.staZp0 0xC3, [0x77]),
       .ok (.staZpx 0xC3, [0x77]),
       .ok (.staAbs 0xC234, [0x77]),
       .ok (.staAbx 0xC234, [0x77]),
       .ok (.staAby 0xC234, [0x77]),
       .ok (.staIzx 0xC3, [0x77]),
       .ok (.staIzy 0xC3, [0x77]),
       .ok (.stxZp0 0xC3, [0x77]),
       .ok (.stxZpy 0xC3, [0x77]),
       .ok (.stxAbs 0xC234, [0x77]),
       .ok (.styZp0 0xC3, [0x77]),
       .ok (.styZpx 0xC3, [0x77])] := by
  decide

theorem test_decode_stores_2 :
    List.map decode
      [[0x8C, 0x34, 0xC2, 0x77]] =
      [.ok (.styAbs 0xC234, [0x77])] := by
  decide

theorem test_decode_transfers :
    List.map decode
      [[0xAA, 0x77],
       [0xA8, 0x77],
       [0x8A, 0x77],
       [0x98, 0x77],
       [0xBA, 0x77],
       [0x9A, 0x77]] =
      [.ok (.tax, [0x77]),
       .ok (.tay, [0x77]),
       .ok (.txa, [0x77]),
       .ok (.tya, [0x77]),
       .ok (.tsx, [0x77]),
       .ok (.txs, [0x77])] := by
  decide

theorem test_decode_logic_1 :
    List.map decode
      [[0x29, 0xC3, 0x77],
       [0x25, 0xC3, 0x77],
       [0x35, 0xC3, 0x77],
       [0x2D, 0x34, 0xC2, 0x77],
       [0x3D, 0x34, 0xC2, 0x77],
       [0x39, 0x34, 0xC2, 0x77],
       [0x21, 0xC3, 0x77],
       [0x31, 0xC3, 0x77],
       [0x09, 0xC3, 0x77],
       [0x05, 0xC3, 0x77],
       [0x15, 0xC3, 0x77],
       [0x0D, 0x34, 0xC2, 0x77]] =
      [.ok (.andImm 0xC3, [0x77]),
       .ok (.andZp0 0xC3, [0x77]),
       .ok (.andZpx 0xC3, [0x77]),
       .ok (.andAbs 0xC234, [0x77]),
       .ok (.andAbx 0xC234, [0x77]),
       .ok (.andAby 0xC234, [0x77]),
       .ok (.andIzx 0xC3, [0x77]),
       .ok (.andIzy 0xC3, [0x77]),
       .ok (.oraImm 0xC3, [0x77]),
       .ok (.oraZp0 0xC3, [0x77]),
       .ok (.oraZpx 0xC3, [0x77]),
       .ok (.oraAbs 0xC234, [0x77])] := by
  decide

theorem test_decode_logic_2 :
    List.map decode
      [[0x1D, 0x34, 0xC2, 0x77],
       [0x19, 0x34, 0xC2, 0x77],
       [0x01, 0xC3, 0x77],
       [0x11, 0xC3, 0x77],
       [0x49, 0xC3, 0x77],
       [0x45, 0xC3, 0x77],
       [0x55, 0xC3, 0x77],
       [0x4D, 0x34, 0xC2, 0x77],
       [0x5D, 0x34, 0xC2, 0x77],
       [0x59, 0x34, 0xC2, 0x77],
       [0x41, 0xC3, 0x77],
       [0x51, 0xC3, 0x77]] =
      [.ok (.oraAbx 0xC234, [0x77]),
       .ok (.oraAby 0xC234, [0x77]),
       .ok (.oraIzx 0xC3, [0x77]),
       .ok (.oraIzy 0xC3, [0x77]),
       .ok (.eorImm 0xC3, [0x77]),
       .ok (.eorZp0 0xC3, [0x77]),
       .ok (.eorZpx 0xC3, [0x77]),
       .ok (.eorAbs 0xC234, [0x77]),
       .ok (.eorAbx 0xC234, [0x77]),
       .ok (.eorAby 0xC234, [0x77]),
       .ok (.eorIzx 0xC3, [0x77]),
       .ok (.eorIzy 0xC3, [0x77])] := by
  decide

theorem test_decode_logic_3 :
    List.map decode
      [[0x24, 0xC3, 0x77],
       [0x2C, 0x34, 0xC2, 0x77]] =
      [.ok (.bitZp0 0xC3, [0x77]),
       .ok (.bitAbs 0xC234, [0x77])] := by
  decide

theorem test_decode_increments :
    List.map decode
      [[0xE6, 0xC3, 0x77],
       [0xF6, 0xC3, 0x77],
       [0xEE, 0x34, 0xC2, 0x77],
       [0xFE, 0x34, 0xC2, 0x77],
       [0xC6, 0xC3, 0x77],
       [0xD6, 0xC3, 0x77],
       [0xCE, 0x34, 0xC2, 0x77],
       [0xDE, 0x34, 0xC2, 0x77],
       [0xE8, 0x77],
       [0xC8, 0x77],
       [0xCA, 0x77],
       [0x88, 0x77]] =
      [.ok (.incZp0 0xC3, [0x77]),
       .ok (.incZpx 0xC3, [0x77]),
       .ok (.incAbs 0xC234, [0x77]),
       .ok (.incAbx 0xC234, [0x77]),
       .ok (.decZp0 0xC3, [0x77]),
       .ok (.decZpx 0xC3, [0x77]),
       .ok (.decAbs 0xC234, [0x77]),
       .ok (.decAbx 0xC234, [0x77]),
       .ok (.inx, [0x77]),
       .ok (.iny, [0x77]),
       .ok (.dex, [0x77]),
       .ok (.dey, [0x77])] := by
  decide

theorem test_decode_flags :
    List.map decode
      [[0x18, 0x77],
       [0xD8, 0x77],
       [0x58, 0x77],
       [0xB8, 0x77],
       [0x38, 0x77],
       [0xF8, 0x77],
       [0x78, 0x77],
       [0xEA, 0x77]] =
      [.ok (.clc, [0x77]),
       .ok (.cld, [0x77]),
       .ok (.cli, [0x77]),
       .ok (.clv, [0x77]),
       .ok (.sec, [0x77]),
       .ok (.sed, [0x77]),
       .ok (.sei, [0x77]),
       .ok (.nop, [0x77])] := by
  decide

theorem test_decode_illegal :
    decode [0x02, 0x77] = .ok (.unimplemented 0x02, [0x77]) ∧
    decode [0x1A, 0x77] = .ok (.unimplemented 0x1A, [0x77]) ∧
    decode [0x80, 0x77] = .ok (.unimplemented 0x80, [0x77]) ∧
    decode [0xFF, 0x77] = .ok (.unimplemented 0xFF, [0x77]) := by
  decide

/-- No bytes, and fewer bytes than the format has, are errors with names (R90). -/
theorem test_decode_too_short :
    decode [] = .error .noBytes ∧ decode [0xA9] = .error (.truncated 0xA9) ∧
    decode [0xAD, 0x34] = .error (.truncated 0xAD) := by
  decide

/-- The table's bit numbering: the first byte holds bits 7 to 0; bits above the row's are 0. -/
theorem test_decodeTableWord :
    decodeTableWord 24 0xC234AD = some (.ldaAbs 0xC234) ∧ decodeTableWord 8 0xC234AD = some (.ldaAbs 0x0000) ∧
    decodeTableWord 8 0x02 = some (.unimplemented 0x02) := by
  decide

theorem test_encode : encode (.ldaAbs 0xC234) = [0xAD, 0x34, 0xC2] ∧ encode (.bne 0xFB) = [0xD0, 0xFB] := by
  decide

/-! ### The default machine of 95_test_vectors.md -/

/-- 16 KB NROM, RAM all 0x00, vectors 0x8000, 0x9000, 0xA000, at the first fetch cycle after reset. -/
def machine : State :=
  { State.reset with
    pc := 0x8000
    remainingCycles := 0
    mem := { ram := [], prgSize := .kb16, prg := [(0x3FFB, 0xA0), (0x3FFD, 0x80), (0x3FFF, 0x90)] } }

/-- Bytes at an address. -/
def poke : Word → List Byte → State → State
  | _, [], s => s
  | addr, b :: rest, s => poke (addr + 1) rest { s with mem := placeByte addr b s.mem }

/-- One step of the machine with an instruction's bytes at PC. -/
def one (bytes : List Byte) (s : State) : Option State :=
  match step (poke s.pc bytes s) with
  | .next t => some t
  | .fault _ => none
  | .refused _ => none

/-- A and P after one step. -/
def oneAP (bytes : List Byte) (s : State) : Option (Byte × Byte) := (one bytes s).map fun t => (t.a, pRead t.p)

/-- PC and the duration (R132): the step counts the first of its cycles. -/
def onePcT (bytes : List Byte) (s : State) : Option (Word × Nat) :=
  (one bytes s).map fun t => (t.pc, t.remainingCycles + 1)

/-- A byte of memory and P after one step. -/
def oneByteP (addr : Word) (bytes : List Byte) (s : State) : Option (Byte × Byte) :=
  (one bytes s).map fun t => (memRead t addr, pRead t.p)

/-- The flags of a status byte. -/
def st (b : Byte) (s : State) : State := { s with p := Flags.ofByte b }

/-! ### Vectors of 95_test_vectors.md, one step each -/

/-! #### L2.1 Arithmetic -/

theorem test_adc_signed_overflow :
    oneAP [0x69, 0x50] { machine with a := 0x50 } = some (0xA0, 0xE4) := by
  decide

theorem test_adc_carry_in_and_out :
    oneAP [0x69, 0xFF] (st 0x25 { machine with a := 0xFF }) = some (0xFF, 0xA5) := by
  decide

theorem test_sbc_signed_overflow :
    oneAP [0xE9, 0xB0] (st 0x25 { machine with a := 0x50 }) = some (0xA0, 0xE4) := by
  decide

/-- With D = 1 every row is the same (R165). -/
theorem test_sbc_decimal_is_binary :
    oneAP [0xE9, 0x00] (st 0x2C { machine with a := 0x00 }) = some (0xFF, 0xAC) := by
  decide

theorem test_cmp :
    oneAP [0xC9, 0x20] (st 0x65 { machine with a := 0x10 }) = some (0x10, 0xE4) := by
  decide

theorem test_cpx :
    oneAP [0xE0, 0x00] { machine with x := 0xFF } = some (0x00, 0xA5) := by
  decide

theorem test_cpy :
    oneAP [0xC0, 0x10] { machine with y := 0x10 } = some (0x00, 0x27) := by
  decide

/-! #### L2.2 Shifts and rotates -/

theorem test_asl_memory :
    oneByteP 0x0010 [0x06, 0x10] (poke 0x0010 [0x81] machine) = some (0x02, 0x25) := by
  decide

theorem test_asl_acc :
    oneAP [0x0A] { machine with a := 0x81 } = some (0x02, 0x25) := by
  decide

theorem test_lsr :
    oneAP [0x4A] (st 0xA4 { machine with a := 0xFF }) = some (0x7F, 0x25) := by
  decide

theorem test_rol :
    oneAP [0x2A] (st 0x25 { machine with a := 0x80 }) = some (0x01, 0x25) := by
  decide

theorem test_ror :
    oneAP [0x6A] (st 0x25 { machine with a := 0x01 }) = some (0x80, 0xA5) := by
  decide

/-! #### L1.5, L2.3 Branches -/

theorem test_bcc :
    onePcT [0x90, 0x10] machine = some (0x8012, 3) ∧ onePcT [0x90, 0x10] (st 0x25 machine) = some (0x8002, 2) := by
  decide

theorem test_bcs_next_page :
    onePcT [0xB0, 0x20] (st 0x25 { machine with pc := 0x80F0 }) = some (0x8112, 4) := by
  decide

theorem test_beq :
    onePcT [0xF0, 0x05] (st 0x26 { machine with pc := 0x80FD }) = some (0x8104, 4) ∧
    onePcT [0xF0, 0x05] machine = some (0x8002, 2) := by
  decide

theorem test_bmi_backwards :
    onePcT [0x30, 0x80] (st 0xA4 { machine with pc := 0x8100 }) = some (0x8082, 4) := by
  decide

theorem test_bne :
    onePcT [0xD0, 0xFB] { machine with pc := 0x8008 } = some (0x8005, 3) := by
  decide

theorem test_bpl_self_loop :
    onePcT [0x10, 0xFE] machine = some (0x8000, 3) := by
  decide

theorem test_bvc :
    onePcT [0x50, 0x7F] machine = some (0x8081, 3) := by
  decide

theorem test_bvs_wraps :
    onePcT [0x70, 0x7F] (st 0x64 { machine with pc := 0xFFF0 }) = some (0x0071, 4) := by
  decide

/-! #### L1.4, L1.6, L1.7, L2.4 Jumps, subroutines, BRK, RTI -/

theorem test_jmp_indirect_page_wrap :
    onePcT [0x6C, 0xFF, 0x02] (poke 0x0200 [0x50] (poke 0x02FF [0x40, 0x7F] machine)) = some (0x5040, 5) := by
  decide

theorem test_jmp_absolute :
    onePcT [0x4C, 0x00, 0x80] machine = some (0x8000, 3) := by
  decide

theorem test_jsr :
    (one [0x20, 0x34, 0x12] { machine with pc := 0xC000 }).map (fun t => (memRead16 t 0x01FE, t.sp, t.pc)) =
      some (0xC002, 0xFD, 0x1234) := by
  decide

theorem test_jsr_sp_wraps :
    (one [0x20, 0x00, 0x90] { machine with sp := 0x00 }).map (fun t => (memRead t 0x0100, memRead t 0x01FF, t.sp)) =
      some (0x80, 0x02, 0xFE) := by
  decide

theorem test_rts_wraps :
    onePcT [0x60] { poke 0x01FE [0xFF, 0xFF] machine with sp := 0xFD } = some (0x0000, 6) := by
  decide

theorem test_brk :
    (one [0x00, 0xFF] machine).map (fun t => (memRead16 t 0x01FE, memRead t 0x01FD, t.sp, t.pc, pRead t.p)) =
      some (0x8002, 0x34, 0xFC, 0x9000, 0x24) := by
  decide

theorem test_brk_pc_wraps :
    (one [0x00] { machine with pc := 0xFFFF, mem := { machine.mem with prg := [] } }).map (fun t => memRead16 t 0x01FE) =
      some 0x0001 := by
  decide

theorem test_rti :
    (one [0x40] { poke 0x01FD [0x34, 0x02, 0x80] machine with pc := 0x9000, sp := 0xFC }).map
      (fun t => (t.pc, t.sp, pRead t.p)) = some (0x8002, 0xFF, 0x24) := by
  decide

/-! #### L2.5 Stack -/

theorem test_pha :
    (one [0x48] { machine with a := 0x80 }).map (fun t => (memRead t 0x01FF, t.sp, pRead t.p)) = some (0x80, 0xFE, 0x24) := by
  decide

theorem test_php_sp_wraps :
    (one [0x08] { machine with sp := 0x00 }).map (fun t => (memRead t 0x0100, t.sp)) = some (0x34, 0xFF) := by
  decide

theorem test_pla :
    oneAP [0x68] { poke 0x01FF [0x80] machine with sp := 0xFE } = some (0x80, 0xA4) := by
  decide

theorem test_plp_sp_wraps :
    (one [0x28] (poke 0x0100 [0xFF] machine)).map (fun t => (t.sp, pRead t.p)) = some (0x00, 0xEF) := by
  decide

/-! #### L2.6 Loads, stores, transfers and addressing modes -/

theorem test_lda_abx_address_wraps :
    (one [0xBD, 0xFF, 0xFF] { poke 0x0000 [0x66] machine with x := 0x01 }).map
      (fun t => (t.a, t.remainingCycles + 1)) = some (0x66, 5) := by
  decide

theorem test_lda_izx_pointer_wraps :
    oneAP [0xA1, 0xFF] (poke 0x0234 [0xC3] (poke 0x0100 [0x07] (poke 0x00FF [0x34] (poke 0x0000 [0x02] machine)))) =
      some (0xC3, 0xA4) := by
  decide

theorem test_lda_izy_page_cross :
    (one [0xB1, 0x40] { poke 0x0308 [0x5A] (poke 0x0040 [0xF8, 0x02] machine) with y := 0x10 }).map
      (fun t => (t.a, t.remainingCycles + 1)) = some (0x5A, 6) := by
  decide

theorem test_lda_zpx_wraps :
    oneAP [0xB5, 0x80] { poke 0x007F [0x42] machine with x := 0xFF } = some (0x42, 0x24) := by
  decide

theorem test_ldx_zpy :
    (one [0xB6, 0x0B] { poke 0x0010 [0xAB] machine with y := 0x05 }).map (fun t => (t.x, pRead t.p)) = some (0xAB, 0xA4) := by
  decide

theorem test_ldy_imm :
    (one [0xA0, 0x00] { machine with y := 0x01 }).map (fun t => (t.y, pRead t.p)) = some (0x00, 0x26) := by
  decide

theorem test_sta_abx_no_page_cross_cycle :
    (one [0x9D, 0xFF, 0x02] { machine with a := 0x99, x := 0x01 }).map
      (fun t => (memRead t 0x0300, t.remainingCycles + 1)) = some (0x99, 5) := by
  decide

theorem test_sta_prg_ignored :
    (one [0x8D, 0x00, 0x80] { machine with a := 0x05 }).map (fun t => (memRead t 0x8000, t.pc)) = some (0x8D, 0x8003) := by
  decide

theorem test_stx_zpy_wraps :
    (one [0x96, 0x01] { machine with x := 0x5C, y := 0xFF }).map (fun t => memRead t 0x0000) = some 0x5C := by
  decide

theorem test_sty :
    (one [0x84, 0x10] { machine with y := 0x7E }).map (fun t => (memRead t 0x1810, pRead t.p)) = some (0x7E, 0x24) := by
  decide

theorem test_tax :
    (one [0xAA] { machine with x := 0x01 }).map (fun t => (t.x, pRead t.p)) = some (0x00, 0x26) := by
  decide

theorem test_tay :
    (one [0xA8] { machine with a := 0x80 }).map (fun t => (t.y, pRead t.p)) = some (0x80, 0xA4) := by
  decide

theorem test_txa :
    oneAP [0x8A] { machine with x := 0x80 } = some (0x80, 0xA4) := by
  decide

theorem test_tya :
    oneAP [0x98] { machine with a := 0x01 } = some (0x00, 0x26) := by
  decide

theorem test_tsx :
    (one [0xBA] machine).map (fun t => (t.x, pRead t.p)) = some (0xFF, 0xA4) := by
  decide

theorem test_txs_no_flags :
    (one [0x9A] machine).map (fun t => (t.sp, pRead t.p)) = some (0x00, 0x24) := by
  decide

/-! #### L2.7 Logic -/

theorem test_and :
    oneAP [0x29, 0x0F] { machine with a := 0xF0 } = some (0x00, 0x26) := by
  decide

theorem test_ora :
    oneAP [0x09, 0x0F] { machine with a := 0xF0 } = some (0xFF, 0xA4) := by
  decide

theorem test_eor :
    oneAP [0x49, 0xFF] { machine with a := 0xAA } = some (0x55, 0x24) := by
  decide

theorem test_bit :
    oneAP [0x24, 0x10] { poke 0x0010 [0xC0] machine with a := 0x0F } = some (0x0F, 0xE6) := by
  decide

/-! #### L2.8 Increment and decrement -/

theorem test_inc :
    oneByteP 0x0010 [0xE6, 0x10] (st 0x25 (poke 0x0010 [0xFF] machine)) = some (0x00, 0x27) := by
  decide

theorem test_inc_prg_ignored :
    oneByteP 0x9000 [0xEE, 0x00, 0x90] (poke 0x9000 [0xEA] machine) = some (0xEA, 0xA4) := by
  decide

theorem test_dec :
    oneByteP 0x0010 [0xC6, 0x10] machine = some (0xFF, 0xA4) := by
  decide

theorem test_inx :
    (one [0xE8] { machine with x := 0xFF }).map (fun t => (t.x, pRead t.p)) = some (0x00, 0x26) := by
  decide

theorem test_iny :
    (one [0xC8] { machine with y := 0x7F }).map (fun t => (t.y, pRead t.p)) = some (0x80, 0xA4) := by
  decide

theorem test_dex :
    (one [0xCA] { machine with x := 0x00 }).map (fun t => (t.x, pRead t.p)) = some (0xFF, 0xA4) := by
  decide

theorem test_dey :
    (one [0x88] { machine with y := 0x80 }).map (fun t => (t.y, pRead t.p)) = some (0x7F, 0x24) := by
  decide

/-! #### L2.9 Flags and NOP -/

theorem test_clc :
    (one [0x18] (st 0x25 machine)).map (fun t => pRead t.p) = some 0x24 := by
  decide

theorem test_cld :
    (one [0xD8] (st 0x2C machine)).map (fun t => pRead t.p) = some 0x24 := by
  decide

theorem test_cli :
    (one [0x58] (st 0x24 machine)).map (fun t => pRead t.p) = some 0x20 := by
  decide

theorem test_clv :
    (one [0xB8] (st 0x64 machine)).map (fun t => pRead t.p) = some 0x24 := by
  decide

theorem test_sec :
    (one [0x38] (st 0x24 machine)).map (fun t => pRead t.p) = some 0x25 := by
  decide

theorem test_sed :
    (one [0xF8] (st 0x24 machine)).map (fun t => pRead t.p) = some 0x2C := by
  decide

theorem test_sei :
    (one [0x78] (st 0x20 machine)).map (fun t => pRead t.p) = some 0x24 := by
  decide

theorem test_nop :
    one [0xEA] machine = some { poke 0x8000 [0xEA] machine with pc := 0x8001, remainingCycles := 1 } := by
  decide

/-! #### L1.2, L1.3, L2.10 Bus and mapper -/

/-- 0x0A37 AND 0x07FF is 0x0237 (R53). L1.2 of 95_test_vectors.md lists the mirrors of 0x0037 instead (log 13). -/
theorem test_ram_mirrors :
    let m := busWrite machine.mem 0x0A37 0x5C
    busRead m 0x0237 = 0x5C ∧ busRead m 0x0A37 = 0x5C ∧ busRead m 0x1237 = 0x5C ∧ busRead m 0x1A37 = 0x5C ∧ busRead m 0x0037 = 0x00 := by
  decide

theorem test_ram_top_mirror :
    busRead (busWrite machine.mem 0x1FFF 0x01) 0x07FF = 0x01 := by
  decide

theorem test_nrom_mirror :
    busRead machine.mem 0xBFFF = 0x90 ∧ busRead machine.mem 0xFFFF = 0x90 := by
  decide

theorem test_nrom_32k :
    let m : Memory := { ram := [], prgSize := .kb32, prg := [(0x4000, 0x11), (0x7FFC, 0x22)] }
    busRead m 0xC000 = 0x11 ∧ busRead m 0xFFFC = 0x22 ∧ busRead m 0x8000 = 0x00 := by
  decide

theorem test_stubs_and_unmapped :
    let m := busWrite machine.mem 0x6000 0x12
    busRead m 0x2002 = 0x00 ∧ busRead m 0x3FFF = 0x00 ∧ busRead m 0x4016 = 0x00 ∧ busRead m 0x7FFF = 0x00 ∧ m = machine.mem := by
  decide

/-! #### L2.11 Engine, exceptions and reset -/

theorem test_unimplemented_opcode_faults :
    (match step (poke 0x8000 [0x02] machine) with
      | .fault f => decide (f = .unimplementedOpcode 0x02 0x8000)
      | _ => false) = true := by
  decide

theorem test_irq_taken :
    let t := cpuIrq (st 0x21 { machine with pc := 0x8002 })
    (memRead16 t 0x01FE, memRead t 0x01FD, t.sp, pRead t.p, t.pc) = (0x8002, 0x21, 0xFC, 0x25, 0x9000) := by
  decide

theorem test_irq_masked :
    cpuIrq machine = machine := by
  decide

theorem test_nmi :
    (memRead16 (cpuNmi machine) 0x01FE, memRead (cpuNmi machine) 0x01FD, (cpuNmi machine).sp, (cpuNmi machine).pc) =
      (0x8000, 0x24, 0xFC, 0xA000) := by
  decide

theorem test_fetch_from_stub_is_brk :
    (one [] { machine with pc := 0x2000 }).map (fun t => (memRead16 t 0x01FE, memRead t 0x01FD, t.pc)) =
      some (0x2002, 0x34, 0x9000) := by
  decide

theorem test_reset :
    let t := cpuReset { machine with a := 0x01, sp := 0x03, p := Flags.ofByte 0xFF, pc := 0x1234 }
    (t.a, t.sp, pRead t.p, t.pc) = (0x00, 0xFF, 0x24, 0x8000) := by
  decide

/-- R33, R34: the getters of a block after reset, each flag by its name. -/
theorem test_getters :
    ([Getter.a, .sp, .pc, .p].map fun g => getterValue g (cpuReset machine)) = [0x00, 0xFF, 0x8000, 0x24] ∧
    ([FlagName.n, .v, .u, .b, .d, .i, .z, .c].map fun f => getterValue (.flag f) (cpuReset machine)) =
      [0, 0, 1, 0, 0, 1, 0, 0] := by
  decide

/-- The first step after reset runs the placed instruction (log 1, log 11). -/
theorem test_withFetchWord :
    (match step (State.reset.withFetchWord 16 0x05A9) with
      | .next t => decide (t.a = 0x05 ∧ t.pc = 0x0002 ∧ t.remainingCycles = 1)
      | _ => false) = true := by
  decide

theorem test_scripted_call_comes_first :
    (match step { machine with hostCalls := [.busWrite 0x0010 0x07, .clock] } with
      | .next t => decide (memRead t 0x0010 = 0x07 ∧ t.pc = 0x8000 ∧ t.hostCalls = [.clock])
      | _ => false) = true := by
  decide

theorem test_create_bus_refuses_mapper_1 :
    (match createBus (some ([0x4E, 0x45, 0x53, 0x1A, 1, 0, 0x10, 0] ++ List.replicate 8 0)) with
      | .error e => decide (e = .unsupportedRom)
      | .ok _ => false) = true := by
  decide

theorem test_reset_memory_wf :
    State.reset.mem.wf = true ∧ (busWrite State.reset.mem 0x0010 0x00) = State.reset.mem := by
  decide

/-! ### Witnesses: the hypotheses of every statement that has some are met -/

/-- A state in which an instruction has left cycles to count (R133). -/
def counting : State := { machine with remainingCycles := 3 }

theorem machine_inv : Inv machine := ⟨⟨rfl, rfl⟩, by decide⟩

theorem witness_SetNZAndFlagAccess : FlagName.n ≠ .b ∧ FlagName.n ≠ .u ∧ FlagName.n ≠ FlagName.z := by
  decide

theorem witness_BusRoutesEveryAddress :
    (0x1FFF : Word).toNat < 0x2000 ∧ 0x2000 ≤ (0x2000 : Word).toNat ∧ (0x7FFF : Word).toNat < 0x8000 ∧
    0x8000 ≤ (0x8000 : Word).toNat ∧ 0x8000 ≤ (0xFFFF : Word).toNat := by
  decide

theorem witness_RamIsMirroredEvery2048Bytes :
    (0x1FFF : Word).toNat < 0x2000 ∧ SameRamByte 0x1FFF 0x07FF ∧ ¬ SameRamByte 0x1FFF 0x1FFE ∧ ¬ SameRamByte 0x1FFF 0x27FF := by
  unfold SameRamByte
  decide

theorem witness_NromMapsThePrgWindow :
    (0x7FFF : Word).toNat < 0x8000 ∧ 0x8000 ≤ (0x8000 : Word).toNat ∧ machine.mem.prgSize = .kb16 := by
  decide

/-- Also for the clause on calls of `VectorsAreTheLastPrgBytes`. -/
theorem witness_NoCallChangesPrgRom :
    hostCall (.busWrite 0x8000 0x05) machine = .next machine ∧ ∃ t, hostCall .clock counting = .next t :=
  ⟨rfl, _, rfl⟩

/-- Two PRG banks with 32768 bytes of data; one bank and a trainer; two banks one byte short; and a header one byte short. -/
theorem witness_CreateBusAdmitsOnlyNrom :
    let admitted (b4 b5 b6 b7 : Byte) (data : List Byte) :=
      (b4 = 1 ∨ b4 = 2) ∧ (b7 &&& 0x0C) ≠ 0x08 ∧ b7.getLsbD 0 = false ∧ (b7 &&& 0xF0) = 0 ∧ (b6 &&& 0xF0) = 0 ∧
        (if b6.getLsbD 2 = true then 512 else 0) + 16384 * b4.toNat + 8192 * b5.toNat ≤ data.length
    admitted 2 0 0 0 (List.replicate 32768 0xEA) ∧ admitted 1 0 4 0 (List.replicate 16896 0xEA) ∧
      ¬ admitted 2 0 0 0 (List.replicate 32767 0xEA) ∧ (List.replicate 15 (0x4E : Byte)).length < 16 := by
  simp only [List.length_replicate]
  decide

theorem witness_DecodeInvertsEncode : (Instr.ldaAbs 0xFFFF).wf = true ∧ (Instr.unimplemented 0xFF).wf = true := by
  decide

theorem witness_EncodeInvertsDecode : decode [0x00] = .ok (.brk, []) ∧ decode [0xFF] = .ok (.unimplemented 0xFF, []) := by
  decide

theorem witness_IllegalBytesAreTheListed105 : (0xFF : Byte) ∈ illegalOpcodes ∧ (0x00 : Byte) ∉ illegalOpcodes := by
  decide

theorem witness_LengthFollowsTheMode :
    (Instr.ldaImm 0x01).wf = true ∧ (Instr.ldaImm 0x02).wf = true ∧ (Instr.ldaImm 0x01).opcode = (Instr.ldaImm 0x02).opcode ∧
    decode (bytesAt (poke 0x8000 [0x6C, 0xFF, 0x02] machine).mem 0x8000 3) = .ok (.jmpInd 0x02FF, []) := by
  decide

theorem witness_OperandPrimitives :
    (Operand.zp0 0xFF).mode ≠ .acc ∧ (Operand.zp0 0xFF).mode ≠ .imm ∧
    (instrAt (poke 0x8000 [0xA9, 0x05] machine).mem machine.pc).operand.mode = .imm := by
  decide

theorem witness_StepRunsTheDecodedInstruction :
    AtFetch (poke 0x8000 [0xA9, 0x05] machine) ∧
    decode (bytesAt (poke 0x8000 [0xA9, 0x05] machine).mem 0x8000 2) = .ok (.ldaImm 0x05, []) ∧
    { machine with hostCalls := [.nmi] }.hostCalls = HostCall.nmi :: [] :=
  ⟨⟨⟨rfl, rfl⟩, rfl, rfl⟩, by decide, rfl⟩

theorem witness_CountdownOnlyDecrements : Running counting ∧ 0 < counting.remainingCycles ∧ counting.hostCalls = [] :=
  ⟨⟨rfl, rfl⟩, by decide, rfl⟩

/-- A BNE on a page's last bytes, taken to the next page: 4 cycles, the largest count of a branch. -/
theorem witness_InstructionTakesItsDurationInClocks :
    let s : State := poke 0x80FC [0xD0, 0x7F] { machine with pc := 0x80FC }
    ∃ t, AtFetch s ∧ exec (instrAt s.mem s.pc) s = .next t ∧ t.remainingCycles = 4 :=
  ⟨_, ⟨⟨rfl, rfl⟩, rfl, rfl⟩, rfl, by decide⟩

theorem witness_EveryInstructionHasItsDuration : Documented (.bne 0x7F) ∧ Documented (.ldaAbx 0xFFFF) := by
  unfold Documented
  decide

theorem witness_UnimplementedOpcodeHalts :
    let s : State := poke 0x8000 [0x02] machine
    Running s ∧ s.remainingCycles = 0 ∧ busRead s.mem s.pc ∈ illegalOpcodes :=
  ⟨⟨rfl, rfl⟩, rfl, by decide⟩

theorem witness_RefusedCalls :
    (haltState 0x02 0x8000 machine).halted ≠ none ∧
    (State.constructed Memory.blank).halted = none ∧ (State.constructed Memory.blank).resetDone = false :=
  ⟨nofun, rfl, rfl⟩

theorem witness_OnlyIllegalBytesStopARunningBlock : Running machine ∧ Running (poke 0x8000 [0xFF] machine) :=
  ⟨⟨rfl, rfl⟩, ⟨rfl, rfl⟩⟩

theorem witness_FetchReadsTheBus :
    0x2000 ≤ (0x2000 : Word).toNat ∧ (0x7FFF : Word).toNat < 0x8000 ∧ (0x1FFF : Word).toNat < 0x2000 := by
  decide

/-- The results of the mnemonics: each has an instruction, and the Encoding lines are about well-formed ones. -/
theorem witness_results_of_operand_instructions :
    (Instr.adcAbx 0xFFFF).mnemonic = .adc ∧ (Instr.sbcIzy 0xFF).mnemonic = .sbc ∧ (Instr.cmpImm 0x00).mnemonic = .cmp ∧
    (Instr.cpxAbs 0x2000).mnemonic = .cpx ∧ (Instr.cpyZp0 0xFF).mnemonic = .cpy ∧ Instr.aslAcc.mnemonic = .asl ∧
    (Instr.lsrAbx 0x8000).mnemonic = .lsr ∧ (Instr.rolZpx 0xFF).mnemonic = .rol ∧ (Instr.rorZp0 0x00).mnemonic = .ror ∧
    (Instr.adcAbx 0xFFFF).wf = true ∧ Instr.aslAcc.wf = true := by
  decide

theorem witness_results_of_loads_stores_and_logic :
    (Instr.ldaIzx 0xFF).mnemonic = .lda ∧ (Instr.ldxZpy 0xFF).mnemonic = .ldx ∧ (Instr.ldyAbx 0xFFFF).mnemonic = .ldy ∧
    (Instr.staAby 0x1FFF).mnemonic = .sta ∧ (Instr.stxZpy 0x01).mnemonic = .stx ∧ (Instr.styAbs 0x8000).mnemonic = .sty ∧
    (Instr.andImm 0x0F).mnemonic = .and ∧ (Instr.oraIzy 0x00).mnemonic = .ora ∧ (Instr.eorZp0 0x00).mnemonic = .eor ∧
    (Instr.bitAbs 0xFFFF).mnemonic = .bit ∧ (Instr.incAbx 0xFFFF).mnemonic = .inc ∧ (Instr.decZp0 0x00).mnemonic = .dec := by
  decide

theorem witness_DecimalFlagHasNoEffect :
    Documented (.adcImm 0x99) ∧ (Instr.adcImm 0x99).mnemonic ∉ [Mnemonic.cld, .sed, .plp, .rti, .php, .brk] := by
  unfold Documented
  decide

/-- ADC #0x50 from 0x50 gives 0xA0; the state for the SBC #0x50 has that A and C = 1. -/
theorem witness_SbcUndoesAdc :
    (Instr.adcImm 0x50).mnemonic = .adc ∧ (Instr.sbcImm 0x50).mnemonic = .sbc ∧
    let s : State := { machine with a := 0x50 }
    ∃ t, exec (.adcImm 0x50) s = .next t ∧
      let t' : State := { t with p := { t.p with c := true } }
      t'.a = t.a ∧ t'.p.c = !s.p.c ∧ operandM (.sbcImm 0x50) t' = operandM (.adcImm 0x50) s :=
  ⟨rfl, rfl, _, rfl, rfl, rfl, rfl⟩

theorem witness_RtiUndoesInterruptEntry : (st 0x20 machine).p.i = false := by
  decide

theorem witness_InterruptEntryPushesPcAndStatus :
    0x8000 ≤ nmiVector.toNat ∧ nmiVector.toNat < 0xFFFF ∧ 0x8000 ≤ irqVector.toNat ∧ irqVector.toNat < 0xFFFF := by
  decide

theorem witness_IrqIsMaskedByIAndNmiIsNot :
    Running counting ∧ counting.p.i = true ∧ Running (st 0x20 counting) ∧ (st 0x20 counting).p.i = false :=
  ⟨⟨rfl, rfl⟩, rfl, ⟨rfl, rfl⟩, by decide⟩

theorem witness_ResetReinitialisesTheCpu : (State.constructed Memory.blank).halted = none ∧ counting.halted = none :=
  ⟨rfl, rfl⟩

theorem witness_HostAccessesTouchOnlyMemory : machine.halted = none ∧ machine.resetDone = true :=
  ⟨rfl, rfl⟩

/-- NOP writes no register and no flag, and stores nothing; ASL A writes only A. -/
theorem witness_register_flag_and_memory_frames :
    (∃ t, exec .nop machine = .next t) ∧ (∃ t, exec .aslAcc machine = .next t) ∧
    Mnemonic.nop ∉ [Mnemonic.lda, .pla, .txa, .tya, .adc, .sbc, .and, .ora, .eor] ∧ Instr.nop.operand.mode ≠ .acc ∧
    Mnemonic.nop ∉ [Mnemonic.ldx, .tax, .tsx, .inx, .dex] ∧ Mnemonic.nop ∉ [Mnemonic.ldy, .tay, .iny, .dey] ∧
    Mnemonic.nop ∉ [Mnemonic.txs, .pha, .php, .pla, .plp, .jsr, .rts, .brk, .rti] ∧
    Mnemonic.nop ∉ pushing ∧ Mnemonic.nop ∉ storing ∧ Instr.aslAcc.mnemonic ∉ pushing ∧ Instr.aslAcc.operand.mode = .acc :=
  ⟨⟨_, rfl⟩, ⟨_, rfl⟩, by decide, by decide, by decide, by decide, by decide, by decide, by decide, by decide, rfl⟩

/-- Every clause: PHA writes no flag. -/
theorem witness_FlagsChangeOnlyByTheirWriters :
    (∃ t, exec .pha machine = .next t) ∧
    Instr.pha.mnemonic ∉ [Mnemonic.adc, .sbc, .bit, .clv, .plp, .rti] ∧ Instr.pha.mnemonic ∉ [Mnemonic.cld, .sed, .plp, .rti] ∧
    Instr.pha.mnemonic ∉ [Mnemonic.cli, .sei, .brk, .plp, .rti] ∧
    Instr.pha.mnemonic ∉
      ([.adc, .sbc, .and, .ora, .eor, .lda, .ldx, .ldy, .tax, .tay, .txa, .tya, .tsx, .pla, .inc, .dec] ++
        [.inx, .iny, .dex, .dey, .asl, .lsr, .rol, .ror, .cmp, .cpx, .cpy, .bit, .plp, .rti] : List Mnemonic) ∧
    Instr.pha.mnemonic ∉ [Mnemonic.adc, .sbc, .cmp, .cpx, .cpy, .asl, .lsr, .rol, .ror, .clc, .sec, .plp, .rti] :=
  ⟨⟨_, rfl⟩, by decide, by decide, by decide, by decide, by decide⟩

theorem witness_StoresChangeOnlyTheAddressedByte :
    (∃ t, exec (.staAbs 0x1FFF) machine = .next t) ∧ (Instr.staAbs 0x1FFF).mnemonic ∈ storing ∧
    (Instr.staAbs 0x1FFF).operand.mode ≠ .acc ∧ ¬ SameRamByte (after (.staAbs 0x1FFF) machine).operandAddress 0x1FFE :=
  ⟨⟨_, rfl⟩, by decide, by decide, by unfold SameRamByte; decide⟩

/-- BRK at SP = 0x00 pushes the bytes at 0x0100, 0x01FF and 0x01FE; the byte at 0x01FD is none of them. -/
theorem witness_PushesChangeOnlyTheirStackBytes :
    let s : State := { machine with sp := 0x00 }
    (∃ t, exec .brk s = .next t) ∧ (∃ t, exec (.jsr 0xFFFF) s = .next t) ∧ (∃ t, exec .pha s = .next t) ∧
    Instr.brk.mnemonic ∈ pushing ∧ (Instr.jsr 0xFFFF).mnemonic ∈ pushing ∧ Instr.pha.mnemonic ∈ pushing ∧
    ∀ k, k < 3 → ¬ SameRamByte (stackByte (s.sp - BitVec.ofNat 8 k)) 0x01FD :=
  ⟨⟨_, rfl⟩, ⟨_, rfl⟩, ⟨_, rfl⟩, by decide, by decide, by decide, by unfold SameRamByte; decide⟩

theorem witness_InstructionsKeepTheRestOfTheState :
    (∃ t, exec (.jmpInd 0x02FF) machine = .next t) ∧ (Instr.jmpInd 0x02FF).operand.mode ≠ .rel :=
  ⟨⟨_, rfl⟩, by decide⟩

theorem witness_StepKeepsTheInvariant :
    Inv machine ∧ (∃ t, step machine = .next t) ∧ Inv counting ∧ (∃ t, step counting = .next t) :=
  ⟨machine_inv, ⟨_, rfl⟩, ⟨⟨rfl, rfl⟩, by decide⟩, ⟨_, rfl⟩⟩

end Sys2Proof.Tests
end

/-! ### Page crossing: the low-byte overflow test against the high byte of the address (R16, R100, R101, R104) -/

section
namespace Sys2Proof.Machine

/-- The high byte of an indexed address in numbers: the page of the base, or on a carry out of the low byte the next page,
where page 0x00 follows page 0xFF. -/
theorem hi_add_zext16_toNat (base : Word) (index : Byte) :
    (hi (base + zext16 index)).toNat =
      if lowByteOverflows base index then ((hi base).toNat + 1) % 256 else (hi base).toNat := by
  have hbase : base.toNat < 65536 := base.isLt
  have hindex : index.toNat < 256 := index.isLt
  simp only [lowByteOverflows, decide_eq_true_eq, hi_toNat, lo_toNat, BitVec.toNat_add, zext16_toNat]
  split <;> omega

/-- A page and the page that follows it differ, so the overflow test of the resolvers is the glossary's page crossing. -/
theorem lowByteOverflows_iff_hi_ne (base : Word) (index : Byte) :
    lowByteOverflows base index = true ↔ hi (base + zext16 index) ≠ hi base := by
  have hpage : (hi base).toNat < 256 := (hi base).isLt
  rw [ne_eq, ← BitVec.toNat_inj, hi_add_zext16_toNat]
  split
  case isTrue carry =>
    have hnext : ((hi base).toNat + 1) % 256 ≠ (hi base).toNat := by omega
    exact iff_of_true carry hnext
  case isFalse noCarry => exact iff_of_false noCarry (not_not_intro rfl)

/-- Settles O17: each of the three resolvers applies the overflow test to its own base and index. -/
theorem pageCrossMeansTheHighByteChanges : Obligations.PageCrossMeansTheHighByteChanges := by
  intro s w b
  exact ⟨lowByteOverflows_iff_hi_ne w s.x, lowByteOverflows_iff_hi_ne w s.y,
    lowByteOverflows_iff_hi_ne (zeroPagePointer s b) s.y⟩

end Sys2Proof.Machine
end

/-! ### The status register: what is read, pushed and pulled, and access to one flag (10_state.md R25 to R27) -/

section
namespace Sys2Proof.Machine

open Sys2Proof.Spec

/-- P_read() as a number: the six stored flags at their weights, bit 5 as 1 and B as 0 (R25). -/
theorem pRead_toNat (p : Flags) :
    (pRead p).toNat =
      128 * p.n.toNat + 64 * p.v.toNat + 32 + 8 * p.d.toNat + 4 * p.i.toNat + 2 * p.z.toNat + p.c.toNat := by
  rcases p with ⟨n, v, d, i, z, c⟩
  revert n v d i z c
  decide

/-- The byte interrupt entry pushes, as a number: B has the weight 16 and is 0 in P_read() (R25, R262). -/
theorem entryStatus_toNat (b : Bool) (p : Flags) : (entryStatus b p).toNat = (pRead p).toNat + 16 * b.toNat := by
  rcases p with ⟨n, v, d, i, z, c⟩
  revert b n v d i z c
  decide

/-- PHP pushes what interrupt entry pushes for B = 1, since bit 5 already reads 1 (R25, R202). -/
theorem phpStatus_eq_entryStatus (p : Flags) : phpStatus p = entryStatus true p := by
  rcases p with ⟨n, v, d, i, z, c⟩
  revert n v d i z c
  decide

/-- P_read() of pulled flags, as a number: bits 5 and 4 of the pulled byte are discarded, and bit 5 reads 1 (R25). -/
theorem pRead_ofByte_toNat (b : Byte) : (pRead (Flags.ofByte b)).toNat = (b &&& 0xCF).toNat + 32 := by
  rw [pRead_ofByte]
  revert b
  decide

/-- Settles O1. -/
theorem statusByteHasBitFiveSetAndNoB : Obligations.StatusByteHasBitFiveSetAndNoB := by
  intro p b v
  refine ⟨pRead_toNat p, ?_, entryStatus_toNat b p, ofByte_pRead p, pRead_ofByte_toNat v⟩
  rw [phpStatus_eq_entryStatus, entryStatus_toNat, Bool.toNat_true]

/-- setNZ sets N and Z by the number of the value (R26). -/
theorem setNZ_eq_nz (v : Byte) (p : Flags) : setNZ v p = nz v p := by
  have hz : (v == 0x00) = decide (v.toNat = 0) := by
    rw [Bool.eq_iff_iff, beq_iff_eq, decide_eq_true_eq, ← BitVec.toNat_inj]
    rfl
  rw [setNZ, nz, bit7_eq, hz]

/-- GetFlag answers each stored flag, 1 for bit 5 and 0 for B (R25, R27). -/
@[simp] theorem getFlag_values (p : Flags) :
    getFlag .n p = p.n ∧ getFlag .v p = p.v ∧ getFlag .u p = true ∧ getFlag .b p = false ∧
    getFlag .d p = p.d ∧ getFlag .i p = p.i ∧ getFlag .z p = p.z ∧ getFlag .c p = p.c := by
  rcases p with ⟨n, v, d, i, z, c⟩
  revert n v d i z c
  decide

/-- GetFlag reads what SetFlag wrote, for a flag that is stored (R27). -/
theorem getFlag_setFlag_same {f : FlagName} (hb : f ≠ .b) (hu : f ≠ .u) (v : Bool) (p : Flags) :
    getFlag f (setFlag f v p) = v := by
  cases f
  case b => exact absurd rfl hb
  case u => exact absurd rfl hu
  all_goals simp [setFlag]

/-- SetFlag leaves what GetFlag reads of every other flag (R27). -/
theorem getFlag_setFlag_of_ne {f g : FlagName} (h : f ≠ g) (v : Bool) (p : Flags) :
    getFlag g (setFlag f v p) = getFlag g p := by
  cases f
  case b | u => rfl
  all_goals
    cases g <;> simp [setFlag] at h ⊢

/-- Settles O2. -/
theorem setNZAndFlagAccess : Obligations.SetNZAndFlagAccess := by
  refine ⟨setNZ_eq_nz, fun p v f g => ?_⟩
  obtain ⟨-, -, hu, hb, -⟩ := getFlag_values p
  exact ⟨hb, hu, rfl, rfl, rfl, fun hb hu => getFlag_setFlag_same hb hu v p, fun h => getFlag_setFlag_of_ne h v p⟩

end Sys2Proof.Machine
end

/-! ### The stack primitives and the host's accesses (10_state.md R30, R31, R34, 20_memory.md R74) -/

section
namespace Sys2Proof.Machine

open Sys2Proof.Spec

/-- The statements' stack byte is the model's: `0x0100 + SP` (R22). -/
theorem stackByte_eq_stackAddress (sp : Byte) : stackByte sp = stackAddress sp := by
  have hsp : sp.toNat < 256 := sp.isLt
  apply BitVec.eq_of_toNat_eq
  rw [stackAddress_toNat, stackByte, BitVec.toNat_ofNat]
  omega

/-- Settles O3: both sides are the same update, once SP and its stack byte are written as numbers. -/
theorem pushAndPullUseTheStackPage : Obligations.PushAndPullUseTheStackPage := by
  intro s v
  have hdown : BitVec.ofNat 8 (s.sp.toNat + 255) = s.sp - 1 := by bv_omega
  have hup : BitVec.ofNat 8 (s.sp.toNat + 1) = s.sp + 1 := by bv_omega
  simp only [stackByte_eq_stackAddress, hdown, hup]
  exact ⟨rfl, rfl, rfl⟩

/-- Settles O52. -/
theorem hostAccessesTouchOnlyMemory : Obligations.HostAccessesTouchOnlyMemory := by
  intro s g a v hh
  refine ⟨?_, ?_, ?_, fun hr => ?_⟩
  · simp [hostCall, hh]
  · simp [hostCall, hh]
  · simp [hostCall, hh, memWrite]
  · have hg : hostCall (.getter g) s = .next s := hostCall_running ⟨hr, hh⟩ (.getter g)
    simp [hg, readGetter_ok hh hr, getterValue, pRead_toNat]

end Sys2Proof.Machine
end

/-! ### Frames of the semantics: registers, flags and memory that an instruction leaves unchanged (10_state.md R21 to R35) -/

section
namespace Sys2Proof.Machine

open Sys2Proof.Spec

/-! A branch leaves the registers but PC, and the flags (R180). -/

@[simp] theorem branch_a (cond : Bool) (s : State) : (branch cond s).state.a = s.a := by cases cond <;> rfl
@[simp] theorem branch_x (cond : Bool) (s : State) : (branch cond s).state.x = s.x := by cases cond <;> rfl
@[simp] theorem branch_y (cond : Bool) (s : State) : (branch cond s).state.y = s.y := by cases cond <;> rfl
@[simp] theorem branch_sp (cond : Bool) (s : State) : (branch cond s).state.sp = s.sp := by cases cond <;> rfl
@[simp] theorem branch_p (cond : Bool) (s : State) : (branch cond s).state.p = s.p := by cases cond <;> rfl

/-- A write-back whose mode is not ACC leaves A (R136). -/
theorem writeBack_a {o : Operand} (ho : o.mode ≠ .acc) (v : Byte) (s : State) : (writeBack o v s).a = s.a := by
  cases o
  case acc => exact absurd rfl ho
  all_goals rfl

/-! Each of the frame lemmas below splits over the mnemonics: the hypothesis excludes the writers, a read-modify-write ends in
`writeBack` and a branch in `branch`, whose laws answer, and no other semantic names the item. -/

/-- A changes only in its writers and in the ACC forms (R21). -/
theorem semOf_a {m : Mnemonic} (hm : m ∉ [Mnemonic.lda, .pla, .txa, .tya, .adc, .sbc, .and, .ora, .eor])
    {o : Operand} (ho : o.mode ≠ .acc) (s : State) : (semOf m o s).state.a = s.a := by
  cases m
  case lda | pla | txa | tya | adc | sbc | and | ora | eor => exact absurd (by decide) hm
  case asl | lsr | rol | ror | inc | dec => exact writeBack_a ho _ s
  case bcc | bcs | beq | bmi | bne | bpl | bvc | bvs => exact branch_a _ s
  all_goals rfl

/-- X changes only in its writers (R21). -/
theorem semOf_x {m : Mnemonic} (hm : m ∉ [Mnemonic.ldx, .tax, .tsx, .inx, .dex]) (o : Operand) (s : State) :
    (semOf m o s).state.x = s.x := by
  cases m
  case ldx | tax | tsx | inx | dex => exact absurd (by decide) hm
  case asl | lsr | rol | ror | inc | dec => exact writeBack_x o _ s
  case bcc | bcs | beq | bmi | bne | bpl | bvc | bvs => exact branch_x _ s
  all_goals rfl

/-- Y changes only in its writers (R21). -/
theorem semOf_y {m : Mnemonic} (hm : m ∉ [Mnemonic.ldy, .tay, .iny, .dey]) (o : Operand) (s : State) :
    (semOf m o s).state.y = s.y := by
  cases m
  case ldy | tay | iny | dey => exact absurd (by decide) hm
  case asl | lsr | rol | ror | inc | dec => exact writeBack_y o _ s
  case bcc | bcs | beq | bmi | bne | bpl | bvc | bvs => exact branch_y _ s
  all_goals rfl

/-- SP changes only in TXS and where bytes are pushed or pulled (R22). -/
theorem semOf_sp {m : Mnemonic} (hm : m ∉ [Mnemonic.txs, .pha, .php, .pla, .plp, .jsr, .rts, .brk, .rti])
    (o : Operand) (s : State) : (semOf m o s).state.sp = s.sp := by
  cases m
  case txs | pha | php | pla | plp | jsr | rts | brk | rti => exact absurd (by decide) hm
  case asl | lsr | rol | ror | inc | dec => exact writeBack_sp o _ s
  case bcc | bcs | beq | bmi | bne | bpl | bvc | bvs => exact branch_sp _ s
  all_goals rfl

/-- Settles O53: the fetch and the duration leave the four registers, so the semantic decides. -/
theorem registersChangeOnlyByTheirWriters : Obligations.RegistersChangeOnlyByTheirWriters := by
  intro i s t h
  obtain ⟨-, rfl⟩ := exec_next h
  exact ⟨fun hm ho => semOf_a hm ho _, fun hm => semOf_x hm _ _, fun hm => semOf_y hm _ _, fun hm => semOf_sp hm _ _⟩

/-- N and Z change only where a result, a compare, BIT or a pulled status is loaded (R35). -/
theorem semOf_nz {m : Mnemonic}
    (hm : m ∉ [Mnemonic.adc, .sbc, .and, .ora, .eor, .lda, .ldx, .ldy, .tax, .tay, .txa, .tya, .tsx, .pla, .inc, .dec] ++
      [.inx, .iny, .dex, .dey, .asl, .lsr, .rol, .ror, .cmp, .cpx, .cpy, .bit, .plp, .rti])
    (o : Operand) (s : State) : (semOf m o s).state.p.n = s.p.n ∧ (semOf m o s).state.p.z = s.p.z := by
  cases m
  case bcc | bcs | beq | bmi | bne | bpl | bvc | bvs =>
    exact ⟨(congrArg Flags.n (branch_p _ s) :), (congrArg Flags.z (branch_p _ s) :)⟩
  case sta | stx | sty | jmp | jsr | rts | brk | pha | php | txs | clc | cld | cli | clv | sec | sed | sei | nop
      | unimplemented => exact ⟨rfl, rfl⟩
  all_goals exact absurd (by decide) hm

/-- V changes only in its writers (R35). -/
theorem semOf_v {m : Mnemonic} (hm : m ∉ [Mnemonic.adc, .sbc, .bit, .clv, .plp, .rti]) (o : Operand) (s : State) :
    (semOf m o s).state.p.v = s.p.v := by
  cases m
  case adc | sbc | bit | clv | plp | rti => exact absurd (by decide) hm
  case asl | lsr | rol | ror | inc | dec => exact (congrArg Flags.v (writeBack_p o _ s) :)
  case bcc | bcs | beq | bmi | bne | bpl | bvc | bvs => exact (congrArg Flags.v (branch_p _ s) :)
  all_goals rfl

/-- D changes only in its writers (R35). -/
theorem semOf_d {m : Mnemonic} (hm : m ∉ [Mnemonic.cld, .sed, .plp, .rti]) (o : Operand) (s : State) :
    (semOf m o s).state.p.d = s.p.d := by
  cases m
  case cld | sed | plp | rti => exact absurd (by decide) hm
  case asl | lsr | rol | ror | inc | dec => exact (congrArg Flags.d (writeBack_p o _ s) :)
  case bcc | bcs | beq | bmi | bne | bpl | bvc | bvs => exact (congrArg Flags.d (branch_p _ s) :)
  all_goals rfl

/-- I changes only in its writers (R35). -/
theorem semOf_i {m : Mnemonic} (hm : m ∉ [Mnemonic.cli, .sei, .brk, .plp, .rti]) (o : Operand) (s : State) :
    (semOf m o s).state.p.i = s.p.i := by
  cases m
  case cli | sei | brk | plp | rti => exact absurd (by decide) hm
  case asl | lsr | rol | ror | inc | dec => exact (congrArg Flags.i (writeBack_p o _ s) :)
  case bcc | bcs | beq | bmi | bne | bpl | bvc | bvs => exact (congrArg Flags.i (branch_p _ s) :)
  all_goals rfl

/-- C changes only in its writers, to which INC and DEC do not belong (R35). -/
theorem semOf_c {m : Mnemonic}
    (hm : m ∉ [Mnemonic.adc, .sbc, .cmp, .cpx, .cpy, .asl, .lsr, .rol, .ror, .clc, .sec, .plp, .rti])
    (o : Operand) (s : State) : (semOf m o s).state.p.c = s.p.c := by
  cases m
  case adc | sbc | cmp | cpx | cpy | asl | lsr | rol | ror | clc | sec | plp | rti => exact absurd (by decide) hm
  case inc | dec => exact (congrArg Flags.c (writeBack_p o _ s) :)
  case bcc | bcs | beq | bmi | bne | bpl | bvc | bvs => exact (congrArg Flags.c (branch_p _ s) :)
  all_goals rfl

/-- Settles O54: the fetch and the duration leave the flags, so the semantic decides. -/
theorem flagsChangeOnlyByTheirWriters : Obligations.FlagsChangeOnlyByTheirWriters := by
  intro i s t h m results
  obtain ⟨-, rfl⟩ := exec_next h
  exact ⟨fun hm => semOf_nz hm _ _, fun hm => semOf_v hm _ _, fun hm => semOf_d hm _ _, fun hm => semOf_i hm _ _,
    fun hm => semOf_c hm _ _⟩

/-- A Bus write leaves every byte that is not a RAM mirror of the one written (R53). -/
theorem busRead_busWrite_of_not_sameRamByte {a b : Word} (h : ¬ SameRamByte a b) (m : Memory) (v : Byte) :
    busRead (busWrite m a v) b = busRead m b := by
  rw [busRead_busWrite, if_neg]
  rintro ⟨ha, hb, hk⟩
  rw [ramKey_eq, ramKey_eq] at hk
  exact h ⟨(inRam_iff a).mp ha, (inRam_iff b).mp hb, hk.symm⟩

/-- A Bus write to a stack byte leaves every byte that is not a mirror of it (R30, R53). -/
theorem busRead_busWrite_of_not_stackByte {sp : Byte} {b : Word} (h : ¬ SameRamByte (stackByte sp) b) (m : Memory)
    (v : Byte) : busRead (busWrite m (stackAddress sp) v) b = busRead m b :=
  busRead_busWrite_of_not_sameRamByte (stackByte_eq_stackAddress sp ▸ h) m v

/-- PHA and PHP leave every byte but the one they push, JSR all but its two, BRK all but its three, downwards from SP (R30). -/
theorem memRead_semOf_pushing {m : Mnemonic} (hm : m ∈ pushing) (o : Operand) (s : State) (b : Word)
    (hb : ∀ k, k < (if m = .brk then 3 else if m = .jsr then 2 else 1) →
      ¬ SameRamByte (stackByte (s.sp - BitVec.ofNat 8 k)) b) :
    memRead (semOf m o s).state b = memRead s b := by
  have first : ¬ SameRamByte (stackByte s.sp) b := by simpa using hb 0 (by split_ifs <;> decide)
  cases m
  case pha | php => exact busRead_busWrite_of_not_stackByte first _ _
  case jsr =>
    have second : ¬ SameRamByte (stackByte (s.sp - 1)) b := hb 1 (by decide)
    simp only [memRead, semOf, semJsr, plain, push_mem, push_sp, busRead_busWrite_of_not_stackByte first,
      busRead_busWrite_of_not_stackByte second]
  case brk =>
    have second : ¬ SameRamByte (stackByte (s.sp - 1)) b := hb 1 (by decide)
    have hsp : s.sp - BitVec.ofNat 8 2 = s.sp - 1 - 1 := by bv_omega
    have third : ¬ SameRamByte (stackByte (s.sp - 1 - 1)) b := hsp ▸ hb 2 (by decide)
    simp only [memRead, semOf, semBrk, plain, interruptEntry, push_mem, push_sp, busRead_busWrite_of_not_stackByte first,
      busRead_busWrite_of_not_stackByte second, busRead_busWrite_of_not_stackByte third]
  all_goals exact absurd hm (by decide)

/-- Settles O57: the fetch and the duration leave memory and SP, so the pushes of the semantic decide. -/
theorem pushesChangeOnlyTheirStackBytes : Obligations.PushesChangeOnlyTheirStackBytes := by
  intro i s t h hm n b hb
  obtain ⟨-, rfl⟩ := exec_next h
  exact memRead_semOf_pushing hm i.operand (fetched i.operand s) b hb

/-- Only REL stages a displacement (R105). -/
theorem operandOffset_of_ne_rel {o : Operand} (ho : o.mode ≠ .rel) (s : State) :
    operandOffset o s = s.relativeOffset := by
  cases o
  case rel => exact absurd rfl ho
  all_goals rfl

/-- Settles O58: no semantic touches these fields and memory changes only by Bus writes, so the rest is the resolver's. -/
theorem instructionsKeepTheRestOfTheState : Obligations.InstructionsKeepTheRestOfTheState := by
  intro i s t h
  obtain ⟨-, rfl⟩ := exec_next h
  obtain ⟨hhalted, hreset, hcalls, haddr, hoffset⟩ := semOf_keeps i.mnemonic i.operand (fetched i.operand s)
  obtain ⟨-, hprg, hsize⟩ := (semOf_mem i.mnemonic i.operand (fetched i.operand s)).keeps
  exact ⟨hhalted, hreset, hcalls, hprg, hsize, haddr, hoffset, fun ho => hoffset.trans (operandOffset_of_ne_rel ho _)⟩

end Sys2Proof.Machine
end

/-! ### Bus, Cartridge and mapper: what a read returns for every address (20_memory.md R52 to R58) -/

section
namespace Sys2Proof.Machine

open Sys2Proof.Spec

/-- The mapper maps nothing below the PRG window (R58). -/
theorem mapCpuAddress_below {addr : Word} (h : addr.toNat < 0x8000) (size : PrgSize) :
    mapCpuAddress size addr = none := by
  have hlt : addr < (0x8000 : Word) := h
  simp only [mapCpuAddress, if_pos hlt]

/-- At and above 0x2000 no address is in RAM. -/
theorem inRam_eq_false {addr : Word} (h : 0x2000 ≤ addr.toNat) : inRam addr = false := by
  rw [← Bool.not_eq_true, inRam_iff]
  omega

/-- A read of the RAM window is a read of the RAM cell the address designates (R52, R53). -/
theorem busRead_ram {addr : Word} (h : addr.toNat < 0x2000) (m : Memory) :
    busRead m addr = cellRead m.ram (ramKey addr) := by
  rw [busRead, if_pos ((inRam_iff addr).mpr h)]

/-- A read between RAM and the PRG window returns 0x00: the two stubs, and the cartridge where nothing is mapped
(R54, R55, R57). -/
theorem busRead_stub {addr : Word} (hlo : 0x2000 ≤ addr.toNat) (hhi : addr.toNat < 0x8000) (m : Memory) :
    busRead m addr = 0x00 := by
  have hcart : cartRead m addr = 0x00 := by rw [cartRead, mapCpuAddress_below hhi]
  rw [busRead, inRam_eq_false hlo, hcart]
  simp

/-- Settles O4: one clause a region. -/
theorem busRoutesEveryAddress : Obligations.BusRoutesEveryAddress := by
  intro m a v
  refine ⟨fun hram => ?_, fun h => busWrite_outside (inRam_eq_false h), fun hlo hhi => busRead_stub hlo hhi m,
    fun h => busRead_prg h⟩
  have hin : inRam a = true := (inRam_iff a).mpr hram
  have hkey : ramKey a = a.toNat % 0x800 := ramKey_eq a
  rw [← hkey]
  exact ⟨busRead_ram hram m, by rw [busWrite, if_pos hin]⟩

/-- Settles O5: all mirrors of an address have one RAM cell, and a read after a write compares the cells. -/
theorem ramIsMirroredEvery2048Bytes : Obligations.RamIsMirroredEvery2048Bytes := by
  intro m a b v ha
  refine ⟨?_, fun hsame => ?_, fun hother => busRead_busWrite_of_not_sameRamByte hother m v⟩
  · have hmask : (a &&& 0x07FF).toNat = a.toNat % 2048 := ramKey_eq a
    have hkey : ramKey (a &&& 0x07FF) = ramKey a := by rw [ramKey_eq, ramKey_eq, hmask, Nat.mod_mod]
    rw [busRead_ram ha, busRead_ram (by omega), hkey]
  · obtain ⟨-, hb, hcell⟩ := hsame
    have hkey : ramKey b = ramKey a := by rw [ramKey_eq, ramKey_eq, hcell]
    rw [busRead_busWrite, if_pos ⟨(inRam_iff a).mpr ha, (inRam_iff b).mpr hb, hkey⟩]

/-- Clearing bit 14 of an address of the PRG window gives the mirror in its lower half (R58). -/
theorem and_0xBFFF_toNat {addr : Word} (h : 0x8000 ≤ addr.toNat) :
    (addr &&& 0xBFFF).toNat = 0x8000 + addr.toNat % 0x4000 := by
  have hlow : (addr.toNat &&& 0xBFFF) % 2 ^ 14 = addr.toNat % 2 ^ 14 := by
    rw [Nat.and_mod_two_pow]
    exact (Nat.and_two_pow_sub_one_eq_mod _ 14).trans (Nat.mod_mod _ _)
  have hhigh : (addr.toNat &&& 0xBFFF) / 2 ^ 14 = 2 := by
    have haddr : addr.toNat < 65536 := addr.isLt
    obtain htop | htop : addr.toNat / 2 ^ 14 = 2 ∨ addr.toNat / 2 ^ 14 = 3 := by omega
    all_goals
      rw [Nat.and_div_two_pow, htop]
      rfl
  have hand : (addr &&& 0xBFFF).toNat = addr.toNat &&& 0xBFFF := BitVec.toNat_and addr 0xBFFF
  omega

/-- Settles O6: an address of the window and its mirror have one offset modulo 16384. -/
theorem nromMapsThePrgWindow : Obligations.NromMapsThePrgWindow := by
  intro m a
  refine ⟨fun h => mapCpuAddress_below h m.prgSize, fun h => ⟨mapCpuAddress_kb32 h, mapCpuAddress_kb16 h, fun hsize => ?_⟩⟩
  have hmirror : (a &&& 0xBFFF).toNat = 0x8000 + a.toNat % 0x4000 := and_0xBFFF_toNat h
  have hoff : ((a &&& 0xBFFF).toNat - 0x8000) % 0x4000 = (a.toNat - 0x8000) % 0x4000 := by omega
  have hwindow : 0x8000 ≤ (a &&& 0xBFFF).toNat := by omega
  rw [busRead_prg h, busRead_prg hwindow, hsize]
  exact congrArg (cellRead m.prg) hoff.symm

end Sys2Proof.Machine
end

/-! ### The fetch (20_memory.md R71) -/

section
namespace Sys2Proof.Machine

/-- The opcode of the instruction at an address is the byte the Bus reads there (R71, R90). -/
theorem instrAt_opcode (m : Memory) (addr : Word) : (instrAt m addr).opcode = busRead m addr := by
  obtain ⟨h1, h2, h3⟩ := opcodeMap_entry (busRead m addr)
  unfold instrAt Instr.opcode
  cases hmap : opcodeMap (busRead m addr) with
  | f1 i => rw [(h1 i hmap).2]; rfl
  | f2 k => rw [(h2 k hmap _).2]; rfl
  | f3 k => rw [(h3 k hmap _).2]; rfl

/-- The byte 0x00 is fetched as BRK (R106). -/
theorem instrAt_brk {m : Memory} {addr : Word} (h : busRead m addr = 0x00) : instrAt m addr = .brk := by
  rw [instrAt, h]
  rfl

/-- Settles O27. -/
theorem fetchReadsTheBus : Obligations.FetchReadsTheBus := by
  refine ⟨fun m a hlo hhi => instrAt_brk (busRead_stub hlo hhi m), fun m a op ha => ?_⟩
  have hin : inRam a = true := (inRam_iff a).mpr ha
  rw [instrAt_opcode, busRead_busWrite, if_pos ⟨hin, hin, rfl⟩]

end Sys2Proof.Machine
end

/-! ### What every call of the host keeps: PRG-ROM, the vectors, the invariant (20_memory.md R53, R58, R59, R65) -/

section
namespace Sys2Proof.Machine

/-- What `t` keeps of `s` after any call: the halt, a reset done, and memory but for Bus writes. -/
structure CallKeeps (s t : State) : Prop where
  halted : t.halted = s.halted
  resetDone : s.resetDone = true → t.resetDone = true
  mem : WrittenFrom s.mem t.mem

theorem CallKeeps.refl (s : State) : CallKeeps s s := ⟨rfl, id, .same⟩

/-- Interrupt entry writes memory by its three pushes (R262). -/
theorem interruptEntry_callKeeps (vector : Word) (b : Bool) (s : State) : CallKeeps s (interruptEntry vector b s) where
  halted := interruptEntry_halted vector b s
  resetDone := (interruptEntry_resetDone vector b s).trans
  mem := .write _ _ _ (.write _ _ _ (.write _ _ _ .same))

/-- An instruction that goes on keeps what its semantic keeps (R130). -/
theorem exec_callKeeps {i : Instr} {s t : State} (h : exec i s = .next t) : CallKeeps s t := by
  obtain ⟨-, rfl⟩ := exec_next h
  obtain ⟨hhalted, hreset, -⟩ := semOf_keeps i.mnemonic i.operand (fetched i.operand s)
  exact ⟨hhalted, hreset.trans, semOf_mem i.mnemonic i.operand (fetched i.operand s)⟩

/-- The decrement of `clock()` touches remaining_cycles only (R130). -/
theorem CallKeeps.countDown {s t : State} (h : CallKeeps s t) : CallKeeps s (countDown t) :=
  ⟨h.halted, h.resetDone, h.mem⟩

theorem clock_callKeeps {s t : State} (h : clock s = .next t) : CallKeeps s t := by
  obtain ⟨-, hc⟩ | ⟨-, u, he, hc⟩ | ⟨-, f, -, hc⟩ | ⟨-, r, -, hc⟩ := clock_cases s
  case inl =>
    obtain rfl := Host.Outcome.next.inj (hc.symm.trans h)
    exact (CallKeeps.refl s).countDown
  case inr.inl =>
    obtain rfl := Host.Outcome.next.inj (hc.symm.trans h)
    exact (exec_callKeeps he).countDown
  all_goals cases hc.symm.trans h

/-- `irq()` is no change, or an interrupt entry with its cycles (R263). -/
theorem cpuIrq_callKeeps (s : State) : CallKeeps s (cpuIrq s) := by
  unfold cpuIrq
  split
  · exact .refl s
  · obtain ⟨hhalted, hreset, hmem⟩ := interruptEntry_callKeeps irqVector false s
    exact ⟨hhalted, hreset, hmem⟩

/-- `nmi()` is an interrupt entry with its cycles (R264). -/
theorem cpuNmi_callKeeps (s : State) : CallKeeps s (cpuNmi s) := by
  obtain ⟨hhalted, hreset, hmem⟩ := interruptEntry_callKeeps nmiVector false s
  exact ⟨hhalted, hreset, hmem⟩

/-- A call whose precondition is "reset done" goes on only as the call itself (R140). -/
theorem afterReset_next {s t : State} {outcome : Host.Outcome State Fault Refusal}
    (h : afterReset s outcome = .next t) : outcome = .next t := by
  unfold afterReset at h
  split at h
  · exact h
  · cases h

/-- A call that goes on is made on a block that is not halted (R138). -/
theorem not_halted_of_hostCall_next {call : HostCall} {s t : State} (h : hostCall call s = .next t) :
    s.halted.isSome = false := by
  rw [← Bool.not_eq_true]
  intro hs
  rw [hostCall_halted hs] at h
  cases h

/-- Everything a call of the host keeps, whichever it is (R278). -/
theorem hostCall_callKeeps {call : HostCall} {s t : State} (h : hostCall call s = .next t) : CallKeeps s t := by
  have hh : s.halted.isSome = false := not_halted_of_hostCall_next h
  simp only [hostCall, hh, if_neg Bool.false_ne_true] at h
  cases call with
  | clock => exact clock_callKeeps (afterReset_next h)
  | reset =>
    obtain rfl := Host.Outcome.next.inj h
    exact ⟨rfl, fun _ => rfl, .same⟩
  | irq =>
    obtain rfl := Host.Outcome.next.inj (afterReset_next h)
    exact cpuIrq_callKeeps s
  | nmi =>
    obtain rfl := Host.Outcome.next.inj (afterReset_next h)
    exact cpuNmi_callKeeps s
  | busWrite addr v =>
    obtain rfl := Host.Outcome.next.inj h
    exact ⟨rfl, id, .write _ _ _ .same⟩
  | getter g =>
    obtain rfl := Host.Outcome.next.inj (afterReset_next h)
    exact .refl s
  | busRead addr | disassemble addr =>
    obtain rfl := Host.Outcome.next.inj h
    exact .refl s

/-- A step keeps what its call keeps: taking the call off the script touches the script only. -/
theorem step_callKeeps {s t : State} (h : step s = .next t) : CallKeeps s t := by
  cases hcalls : s.hostCalls with
  | nil => exact hostCall_callKeeps (step_of_nil hcalls ▸ h)
  | cons call rest =>
    obtain ⟨hhalted, hreset, hmem⟩ := hostCall_callKeeps (step_of_cons hcalls ▸ h)
    exact ⟨hhalted, hreset, hmem⟩

/-- What a call keeps holds the invariant. -/
theorem CallKeeps.inv {s t : State} (h : CallKeeps s t) (hs : Inv s) : Inv t := by
  obtain ⟨⟨hreset, hhalted⟩, hwf⟩ := hs
  exact ⟨⟨h.resetDone hreset, h.halted.trans hhalted⟩, h.mem.keeps.1 hwf⟩

/-- Settles O60. -/
theorem stepKeepsTheInvariant : Obligations.StepKeepsTheInvariant :=
  fun _ _ hs hstep => (step_callKeeps hstep).inv hs

/-- Settles O8: memory changes only by Bus writes, which keep PRG-ROM. -/
theorem noCallChangesPrgRom : Obligations.NoCallChangesPrgRom :=
  fun _ _ _ h => (hostCall_callKeeps h).mem.keeps.2

/-- The six bytes at the end of the address space are the last six of PRG-ROM, whatever its size (R58, R65). -/
theorem busRead_lastPrgBytes (m : Memory) {k : Nat} (hk : k < 6) :
    busRead m (BitVec.ofNat 16 (0xFFFA + k)) = cellRead m.prg (m.prgSize.length - 6 + k) := by
  have haddr : (BitVec.ofNat 16 (0xFFFA + k)).toNat = 0xFFFA + k := by rw [BitVec.toNat_ofNat]; omega
  rw [busRead_prg (by omega), haddr]
  cases m.prgSize
  case kb16 => exact congrArg (cellRead m.prg) (by simp only [PrgSize.length]; omega)
  case kb32 => exact congrArg (cellRead m.prg) (by simp only [PrgSize.length]; omega)

/-- A vector is two neighbours of these six bytes, low byte first (R65). -/
theorem memRead16_lastPrgBytes (s : State) (k : Nat) (hk : k < 5) :
    memRead16 s (BitVec.ofNat 16 (0xFFFA + k)) =
      w16 (cellRead s.mem.prg (s.mem.prgSize.length - 6 + k)) (cellRead s.mem.prg (s.mem.prgSize.length - 6 + (k + 1))) := by
  have hnext : BitVec.ofNat 16 (0xFFFA + k) + 1 = BitVec.ofNat 16 (0xFFFA + (k + 1)) := by bv_omega
  have hlow : k < 6 := by omega
  have hhigh : k + 1 < 6 := by omega
  rw [memRead16, memRead, memRead, hnext, busRead_lastPrgBytes s.mem hlow, busRead_lastPrgBytes s.mem hhigh]

/-- The vectors lie outside RAM. -/
theorem inRam_vector {vector : Word} (h : vector ∈ [nmiVector, resetVector, irqVector]) :
    inRam vector = false ∧ inRam (vector + 1) = false := by
  simp only [List.mem_cons, List.not_mem_nil, or_false] at h
  obtain rfl | rfl | rfl := h <;> decide

/-- No call of the host changes a vector: Bus writes do not show outside RAM (R59, R65). -/
theorem memRead16_vector_of_hostCall {call : HostCall} {s t : State} (h : hostCall call s = .next t) {vector : Word}
    (hvector : vector ∈ [nmiVector, resetVector, irqVector]) : memRead16 t vector = memRead16 s vector := by
  obtain ⟨hlow, hhigh⟩ := inRam_vector hvector
  have hmem : WrittenFrom s.mem t.mem := (hostCall_callKeeps h).mem
  simp only [memRead16, memRead, hmem.busRead_outside hlow, hmem.busRead_outside hhigh]

/-- Settles O7. -/
theorem vectorsAreTheLastPrgBytes : Obligations.VectorsAreTheLastPrgBytes := by
  intro s base
  have hbase : s.mem.prgSize.length - 6 = base := by
    cases hsize : s.mem.prgSize <;> simp only [base, hsize] <;> rfl
  rw [← hbase]
  exact ⟨rfl, rfl, rfl, memRead16_lastPrgBytes s 0 (by decide), memRead16_lastPrgBytes s 2 (by decide),
    memRead16_lastPrgBytes s 4 (by decide), fun _ _ h _ hvector => memRead16_vector_of_hostCall h hvector⟩

end Sys2Proof.Machine
end

/-! ### Construction from an iNES image (20_memory.md R60, R61, 60_exceptions.md R279) -/

section
namespace Sys2Proof.Machine

/-! What an image has to be for the block to be built. -/

/-- An image NROM admits: its format, mapper number and sizes in the terms of R60 and R61. -/
def Admitted (h : InesHeader) (data : List Byte) : Prop :=
  (h.prgBanks = 1 ∨ h.prgBanks = 2) ∧ (h.flags7 &&& 0x0C) ≠ 0x08 ∧ h.flags7.getLsbD 0 = false ∧
  (h.flags7 &&& 0xF0) = 0 ∧ (h.flags6 &&& 0xF0) = 0 ∧
  trainerLength h + 16384 * h.prgBanks.toNat + 8192 * h.chrBanks.toNat ≤ data.length

/-- The mapper number is 0 exactly when both its nibbles are (R61). -/
theorem mapperNumber_eq_zero_iff (h : InesHeader) :
    mapperNumber h = 0 ↔ (h.flags7 &&& 0xF0) = 0 ∧ (h.flags6 &&& 0xF0) = 0 := by
  have hnibble : ∀ b : Byte, b >>> 4 = 0 ↔ (b &&& 0xF0) = 0 := by decide
  rw [← hnibble h.flags6]
  exact BitVec.or_eq_zero_iff

/-- The sizes NROM admits (R60): one bank or two. -/
theorem prgSizeOf_eq_some {banks : Byte} (h : banks = 1 ∨ banks = 2) :
    prgSizeOf banks = some (if banks = 1 then .kb16 else .kb32) := by
  obtain rfl | rfl := h <;> rfl

/-- No other size is admitted (R60). -/
theorem prgSizeOf_eq_none {banks : Byte} (h : ¬ (banks = 1 ∨ banks = 2)) : prgSizeOf banks = none := by
  obtain ⟨h1, h2⟩ := not_or.mp h
  rw [prgSizeOf, if_neg h1, if_neg h2]

/-- A bank is 16384 bytes (R61). -/
theorem prgSize_length {banks : Byte} (h : banks = 1 ∨ banks = 2) :
    PrgSize.length (if banks = 1 then .kb16 else .kb32) = 16384 * banks.toNat := by
  obtain rfl | rfl := h <;> rfl

/-- With an admitted number of banks, `buildCartridge` finds nothing to refuse exactly for an admitted image: since a bank is
not empty, data that ends within the trainer is too short as well. -/
theorem buildCartridge_checks_iff {h : InesHeader} (hbanks : h.prgBanks = 1 ∨ h.prgBanks = 2) (data : List Byte) :
    (isNes20 h || isVsUnisystem h || mapperNumber h != 0 ||
      decide ((data.drop (trainerLength h)).length < 16384 * h.prgBanks.toNat + 8192 * h.chrBanks.toNat)) = false ↔
    Admitted h data := by
  have hpositive : 0 < h.prgBanks.toNat := by obtain hb | hb := hbanks <;> rw [hb] <;> decide
  have hlength : ¬ data.length - trainerLength h < 16384 * h.prgBanks.toNat + 8192 * h.chrBanks.toNat ↔
      trainerLength h + 16384 * h.prgBanks.toNat + 8192 * h.chrBanks.toNat ≤ data.length := by omega
  simp only [Bool.or_eq_false_iff, bne_eq_false_iff_eq, decide_eq_false_iff_not, List.length_drop, isNes20, isVsUnisystem,
    beq_eq_false_iff_ne, mapperNumber_eq_zero_iff, hlength, Admitted, hbanks, true_and, and_assoc]

/-- The PRG-ROM of an admitted image: its size, and its bytes after the trainer (R61). -/
theorem buildCartridge_of_admitted {h : InesHeader} {data : List Byte} (hadm : Admitted h data) :
    buildCartridge h data = some (if h.prgBanks = 1 then .kb16 else .kb32,
      cellsOf 0 ((data.drop (trainerLength h)).take (16384 * h.prgBanks.toNat))) := by
  have hbanks : h.prgBanks = 1 ∨ h.prgBanks = 2 := hadm.1
  simp only [buildCartridge, prgSizeOf_eq_some hbanks, prgSize_length hbanks, (buildCartridge_checks_iff hbanks data).mpr hadm,
    Bool.false_eq_true, if_false]

/-- Any other image is refused (R60, R61). -/
theorem buildCartridge_of_not_admitted {h : InesHeader} {data : List Byte} (hadm : ¬ Admitted h data) :
    buildCartridge h data = none := by
  by_cases hbanks : h.prgBanks = 1 ∨ h.prgBanks = 2
  · have hrefused := Bool.eq_true_of_not_eq_false (mt (buildCartridge_checks_iff hbanks data).mp hadm)
    simp only [buildCartridge, prgSizeOf_eq_some hbanks, prgSize_length hbanks, hrefused, if_true]
  · simp only [buildCartridge, prgSizeOf_eq_none hbanks]

/-! What the block built reads. -/

/-- The first byte of a run shows at its own key only. -/
theorem cellRead_cellsOf_cons_of_ne {key k : Nat} (h : key ≠ k) (b : Byte) (rest : List Byte) :
    cellRead (cellsOf key (b :: rest)) k = cellRead (cellsOf (key + 1) rest) k := by
  by_cases hb : b = unlistedByte
  · rw [cellsOf, if_pos hb]
  · rw [cellsOf, if_neg hb, cellRead, if_neg h]

/-- The cells of a run of bytes list nothing below its first key. -/
theorem cellRead_cellsOf_below (bytes : List Byte) {key k : Nat} (h : k < key) :
    cellRead (cellsOf key bytes) k = unlistedByte := by
  induction bytes generalizing key with
  | nil => rfl
  | cons b rest ih => rw [cellRead_cellsOf_cons_of_ne (Nat.ne_of_gt h), ih (Nat.lt_succ_of_lt h)]

/-- The first byte of a run reads at its first key, whether it is listed or equals an unlisted one. -/
theorem cellRead_cellsOf_cons_self (key : Nat) (b : Byte) (rest : List Byte) :
    cellRead (cellsOf key (b :: rest)) key = b := by
  by_cases hb : b = unlistedByte
  · rw [cellsOf, if_pos hb, cellRead_cellsOf_below rest (Nat.lt_add_one key), hb]
  · rw [cellsOf, if_neg hb, cellRead, if_pos rfl]

/-- The cell at place `j` of a run of bytes reads as its byte `j`, and past its end as an unlisted one. -/
theorem cellRead_cellsOf (bytes : List Byte) (key j : Nat) :
    cellRead (cellsOf key bytes) (key + j) = bytes.getD j unlistedByte := by
  induction bytes generalizing key j with
  | nil => rfl
  | cons b rest ih =>
    cases j with
    | zero => exact cellRead_cellsOf_cons_self key b rest
    | succ j =>
      have hkey : key + (j + 1) = key + 1 + j := by omega
      rw [cellRead_cellsOf_cons_of_ne (by omega), hkey, ih, List.getD_cons_succ]

/-- PRG byte `k` of the block built is the image's data byte `k` after the trainer (R61). -/
theorem cellRead_image (data : List Byte) (skip : Nat) {len k : Nat} (hk : k < len) :
    cellRead (cellsOf 0 ((data.drop skip).take len)) k = data.getD (skip + k) 0 := by
  have hread := cellRead_cellsOf ((data.drop skip).take len) 0 k
  rw [Nat.zero_add] at hread
  rw [hread, List.getD_eq_getElem?_getD, List.getD_eq_getElem?_getD, List.getElem?_take_of_lt hk, List.getElem?_drop]
  rfl

/-- RAM nobody has written reads 0x00 in its whole window (log 2). -/
theorem busRead_emptyRam {m : Memory} (hram : m.ram = []) {addr : Word} (h : addr.toNat < 0x2000) :
    busRead m addr = 0x00 := by
  rw [busRead_ram h, hram]
  rfl

/-- The memory of an image's block is in canonical form. -/
theorem image_wf (data : List Byte) (size : PrgSize) :
    Memory.wf { ram := [], prgSize := size, prg := cellsOf 0 (data.take size.length) } = true := by
  have hprg : cellsWf 0 size.length (cellsOf 0 (data.take size.length)) = true :=
    cellsWf_cellsOf _ _ _ (by rw [Nat.zero_add]; exact List.length_take_le _ _)
  rw [Memory.wf, hprg]
  rfl

/-- Settles O9: the statement's `admitted` is `Admitted` of its header bytes. -/
theorem createBusAdmitsOnlyNrom : Obligations.CreateBusAdmitsOnlyNrom := by
  refine ⟨rfl, fun image hshort => by rw [createBus, splitHeader_short hshort], ?_⟩
  intro b0 b1 b2 b3 b4 b5 b6 b7 c0 c1 c2 c3 c4 c5 c6 c7 data image skip admitted
  let header : InesHeader := { prgBanks := b4, chrBanks := b5, flags6 := b6, flags7 := b7 }
  have himage : splitHeader image = some (header, data) := rfl
  refine ⟨fun hnot => ?_, fun hadm => ?_⟩
  · have hbuild : buildCartridge header data = none := buildCartridge_of_not_admitted hnot
    simp only [createBus, himage, hbuild]
  · have hbanks : b4 = 1 ∨ b4 = 2 := hadm.1
    have hlength := prgSize_length hbanks
    refine ⟨State.constructed
      { ram := [], prgSize := if b4 = 1 then .kb16 else .kb32,
        prg := cellsOf 0 ((data.drop skip).take (16384 * b4.toNat)) },
      ?_, rfl, rfl, hlength ▸ image_wf (data.drop skip) _, rfl, fun a ha => busRead_emptyRam rfl ha,
      fun k hk => cellRead_image data skip hk⟩
    have hheader : Admitted header data := hadm
    have hbuild := buildCartridge_of_admitted hheader
    simp only [createBus, himage, hbuild]
    rfl

end Sys2Proof.Machine
end

/-! ### The decoder and the encoder (30_encoding.md R90, R106, R107) -/

section
namespace Sys2Proof

open Sys2Proof.Spec

/-- Each documented opcode's entry has the format of its Encoding line: one byte, three bytes, and otherwise two (R90). -/
theorem decode_encode (i : Instr) (rest : List Byte) (h : i.wf = true) : decode (encode i ++ rest) = .ok (i, rest) := by
  cases i
  case unimplemented op =>
    have hop : op ∈ illegalOpcodes := List.contains_iff_mem.mp h
    exact decode_f1 (opcodeMap_illegal hop) rest
  case aslAcc | lsrAcc | rolAcc | rorAcc | rts | brk | rti | pha | php | pla | plp | tax | tay | txa | tya | tsx | txs
      | inx | iny | dex | dey | clc | cld | cli | clv | sec | sed | sei | nop => exact decode_f1 rfl rest
  case adcAbs | adcAbx | adcAby | sbcAbs | sbcAbx | sbcAby | cmpAbs | cmpAbx | cmpAby | cpxAbs | cpyAbs | aslAbs | aslAbx
      | lsrAbs | lsrAbx | rolAbs | rolAbx | rorAbs | rorAbx | jmpAbs | jmpInd | jsr | ldaAbs | ldaAbx | ldaAby | ldxAbs
      | ldxAby | ldyAbs | ldyAbx | staAbs | staAbx | staAby | stxAbs | styAbs | andAbs | andAbx | andAby | oraAbs | oraAbx
      | oraAby | eorAbs | eorAbx | eorAby | bitAbs | incAbs | incAbx | decAbs | decAbx => exact decode_f3 rfl _ rest
  all_goals exact decode_f2 rfl _ rest

/-- Settles O10. -/
theorem decodeInvertsEncode : Obligations.DecodeInvertsEncode := decode_encode

/-- What the decoder reads is the instruction of the entry at the head byte, which the opcode map gives its own encoding. -/
theorem wf_and_encode_of_decode {bytes rest : List Byte} {i : Instr} (h : decode bytes = .ok (i, rest)) :
    i.wf = true ∧ encode i ++ rest = bytes := by
  obtain ⟨op, hop⟩ := decode_ok_iff.mp h
  obtain ⟨oneByte, twoBytes, threeBytes⟩ := opcodeMap_entry op
  obtain ⟨hm, rfl⟩ | ⟨k, b, hm, rfl, rfl⟩ | ⟨k, low, high, hm, rfl, rfl⟩ := hop
  · obtain ⟨hwf, hencode⟩ := oneByte i hm
    exact ⟨hwf, by rw [hencode]; rfl⟩
  · obtain ⟨hwf, hencode⟩ := twoBytes k hm b
    exact ⟨hwf, by rw [hencode]; rfl⟩
  · obtain ⟨hwf, hencode⟩ := threeBytes k hm (w16 low high)
    exact ⟨hwf, by rw [hencode, lo_w16, hi_w16]; rfl⟩

/-- Settles O11. -/
theorem encodeInvertsDecode : Obligations.EncodeInvertsDecode := fun _ _ _ => wf_and_encode_of_decode

/-- Settles O12: each byte sequence is the encoding of its instruction; BRK leaves its padding byte. -/
theorem exampleBytesDecode : Obligations.ExampleBytesDecode :=
  ⟨decode_encode (.ldaImm 0x05) [] rfl, decode_encode (.staAbs 0x0200) [] rfl, decode_encode (.jmpInd 0x02FF) [] rfl,
    decode_encode (.jsr 0x1234) [] rfl, decode_encode (.bne 0xFB) [] rfl, decode_encode (.ldaIzy 0x40) [] rfl,
    decode_encode (.stxZpy 0x01) [] rfl, decode_encode .aslAcc [] rfl, decode_encode .brk [0xFF] rfl⟩

/-- The encoding is as long as the mode's size (R90). -/
theorem encode_length (i : Instr) : (encode i).length = i.size := by
  cases i
  all_goals rfl

/-- Every mode's size counts the opcode byte (R90). -/
theorem Mode.size_pos (m : Mode) : 0 < m.size := by
  cases m
  all_goals decide

/-- The instruction the decoder reads has the head byte as its opcode. -/
theorem opcode_of_decode {op : Byte} {tail rest : List Byte} {i : Instr} (h : decode (op :: tail) = .ok (i, rest)) :
    i.opcode = op := by
  have hlength : 0 < (encode i).length := encode_length i ▸ i.operand.mode.size_pos
  obtain ⟨head, operands, hencode⟩ := List.exists_cons_of_length_pos hlength
  have hbytes : encode i ++ rest = op :: tail := (wf_and_encode_of_decode h).2
  rw [hencode, List.cons_append] at hbytes
  rw [Instr.opcode, hencode, List.headD_cons]
  exact (List.cons.inj hbytes).1

/-- No format has more than two operand bytes (R90), so an opcode with two bytes after it is never truncated. -/
theorem exists_decode_of_three_bytes (op b1 b2 : Byte) : ∃ i rest, decode [op, b1, b2] = .ok (i, rest) := by
  cases hm : opcodeMap op with
  | f1 i => exact ⟨i, [b1, b2], decode_f1 hm [b1, b2]⟩
  | f2 k => exact ⟨k b1, [b2], decode_f2 hm b1 [b2]⟩
  | f3 k => exact ⟨k (w16 b1 b2), [], by simpa using decode_f3 hm (w16 b1 b2) []⟩

/-- Only the fatal entry of a listed byte is not documented (R107). -/
theorem documented_of_opcode_not_mem {i : Instr} (hwf : i.wf = true) (h : i.opcode ∉ illegalOpcodes) : Documented i := by
  intro hmnemonic
  cases i
  case unimplemented op => exact h (List.contains_iff_mem.mp hwf)
  all_goals cases hmnemonic

/-- Settles O13: a listed byte has the fatal entry, and any other byte is the opcode of the instruction it decodes to. -/
theorem illegalBytesAreTheListed105 : Obligations.IllegalBytesAreTheListed105 := by
  refine ⟨rfl, by decide, fun op b1 b2 => ?_⟩
  by_cases hop : op ∈ illegalOpcodes
  · exact ⟨.unimplemented op, [b1, b2], decode_f1 (opcodeMap_illegal hop) [b1, b2], fun _ => ⟨rfl, rfl⟩, absurd hop⟩
  · obtain ⟨i, rest, hdecode⟩ := exists_decode_of_three_bytes op b1 b2
    have hopcode : i.opcode = op := opcode_of_decode hdecode
    have hwf : i.wf = true := (wf_and_encode_of_decode hdecode).1
    exact ⟨i, rest, hdecode, fun h => absurd h hop, fun _ => ⟨documented_of_opcode_not_mem hwf (hopcode ▸ hop), hopcode⟩⟩

end Sys2Proof
end

/-! ### Lengths: the mode, the resolver and the disassembler (30_encoding.md R90, R91, R111) -/

section
namespace Sys2Proof.Machine

open Sys2Proof.Spec

/-- The opcode byte alone gives the mode: it is that of the map's entry (R91). -/
theorem mode_eq_of_opcode_eq {i j : Instr} (hi : i.wf = true) (hj : j.wf = true) (h : i.opcode = j.opcode) :
    i.operand.mode = j.operand.mode := by
  have hinfo : entryInfo i.opcode = entryInfo j.opcode := congrArg entryInfo h
  rw [entryInfo_opcode i hi, entryInfo_opcode j hj] at hinfo
  exact (Prod.mk.inj hinfo).2

/-- The opcode fetch and the resolver together advance PC by the mode's size (R90, R130). -/
theorem fetched_pc_eq_add_size (o : Operand) (s : State) : (fetched o s).pc = s.pc + BitVec.ofNat 16 o.mode.size := by
  have hsize : 0 < o.mode.size := o.mode.size_pos
  rw [fetched_pc]
  bv_omega

/-- What the decoder reads from the bytes at an address is the instruction the fetch finds there. -/
theorem instrAt_of_decode_bytesAt {m : Memory} {addr : Word} {n : Nat} {i : Instr} {rest : List Byte}
    (h : decode (bytesAt m addr n) = .ok (i, rest)) : instrAt m addr = i :=
  instrAt_of_decode (fun k hk => by simp [bytesAt]) h

/-- Settles O14. -/
theorem lengthFollowsTheMode : Obligations.LengthFollowsTheMode := by
  refine ⟨fun i => ⟨encode_length i, rfl⟩, fun m => ?_, fun i j => mode_eq_of_opcode_eq,
    fun i s => fetched_pc_eq_add_size i.operand s, fun m addr i rest h => ?_⟩
  · cases m
    all_goals rfl
  · rw [disassembleSize, instrAt_of_decode_bytesAt h]

end Sys2Proof.Machine
end

/-! ### The resolvers in numbers (30_encoding.md R94 to R105) -/

section
namespace Sys2Proof.Machine

open Sys2Proof.Spec

/-! The address sums as numbers: modulo 65536, and modulo 256 where the sum is a byte. -/

theorem ofNat_toNat_add (w : Word) (n : Nat) : BitVec.ofNat 16 (w.toNat + n) = w + BitVec.ofNat 16 n := by
  rw [BitVec.ofNat_add, BitVec.ofNat_toNat, BitVec.setWidth_eq]

theorem zext16_eq_ofNat (b : Byte) : zext16 b = BitVec.ofNat 16 b.toNat :=
  (BitVec.ofNat_toNat 16 b).symm

/-- A zero-page sum wraps within page 0 (R97). -/
theorem zext16_add (b index : Byte) : zext16 (b + index) = BitVec.ofNat 16 ((b.toNat + index.toNat) % 256) := by
  rw [zext16_eq_ofNat, BitVec.toNat_add]

theorem add_zext16 (base : Word) (index : Byte) : base + zext16 index = BitVec.ofNat 16 (base.toNat + index.toNat) := by
  rw [zext16_eq_ofNat, ofNat_toNat_add]

theorem w16_eq_ofNat (low high : Byte) : w16 low high = BitVec.ofNat 16 (low.toNat + 256 * high.toNat) := by
  rw [← w16_toNat, BitVec.ofNat_toNat, BitVec.setWidth_eq]

theorem lowByteOverflows_eq (base : Word) (index : Byte) :
    lowByteOverflows base index = decide (0xFF < base.toNat % 256 + index.toNat) := by
  rw [lowByteOverflows, lo_toNat]

/-- The pointer of IZX and IZY in numbers: the bytes at `n` and `n + 1`, each modulo 256 (R103, R104). -/
def zeroPagePointerNat (m : Memory) (n : Nat) : Nat :=
  (busRead m (BitVec.ofNat 16 (n % 256))).toNat + 256 * (busRead m (BitVec.ofNat 16 ((n + 1) % 256))).toNat

theorem zeroPagePointer_toNat (s : State) {t : Byte} {n : Nat} (h : t.toNat = n % 256) :
    (zeroPagePointer s t).toNat = zeroPagePointerNat s.mem n := by
  have hnext : (t + 1).toNat = (n + 1) % 256 := by
    rw [BitVec.toNat_add, h]
    exact Nat.mod_add_mod n 256 1
  rw [zeroPagePointer, w16_toNat, memRead, memRead, zext16_eq_ofNat, zext16_eq_ofNat, hnext, h, zeroPagePointerNat]

/-! What a resolver leaves, given the address it computes. -/

/-- A resolver that stages no displacement sets PC and operand_address only (R93). -/
theorem resolve_eq_of_operandAddr {o : Operand} {s : State} {addr : Word} (haddr : operandAddr o s = addr)
    (hoffset : operandOffset o s = s.relativeOffset) :
    resolve o s = { s with pc := s.pc + BitVec.ofNat 16 (o.mode.size - 1), operandAddress := addr } := by
  rw [resolve, haddr, hoffset]

/-- IMP and ACC, the modes without operand bytes, change nothing (R94). -/
theorem resolve_eq_self {o : Operand} (ho : o.mode.size = 1) (s : State) : resolve o s = s := by
  cases o
  case imp | acc =>
    show { s with pc := s.pc + 0#16 } = s
    rw [BitVec.add_zero]
  all_goals cases ho

/-- Settles O15: each mode's address sum in numbers; IMM, ABS and REL take theirs as it is. -/
theorem resolversSetPcAndAddress : Obligations.ResolversSetPcAndAddress := by
  intro s b w zp ptr
  have hptr (n : Nat) {t : Byte} (h : t.toNat = n % 256) : (zeroPagePointer s t).toNat = ptr n := zeroPagePointer_toNat s h
  have hbase : (zeroPagePointer s b).toNat = ptr b.toNat := hptr b.toNat (Nat.mod_eq_of_lt b.isLt).symm
  have hizx : zeroPagePointer s (b + s.x) = BitVec.ofNat 16 (ptr (b.toNat + s.x.toNat)) := by
    rw [← hptr _ (BitVec.toNat_add b s.x), BitVec.ofNat_toNat, BitVec.setWidth_eq]
  have hizy : zeroPagePointer s b + zext16 s.y = BitVec.ofNat 16 (ptr b.toNat + s.y.toNat) := by
    rw [add_zext16, hbase]
  have hcross : pageCross (.izy b) s = decide (0xFF < ptr b.toNat % 256 + s.y.toNat) := by
    rw [pageCross, lowByteOverflows_eq, hbase]
  exact ⟨⟨resolve_eq_self rfl s, rfl⟩,
    ⟨resolve_eq_self rfl s, rfl⟩,
    ⟨rfl, rfl⟩,
    ⟨resolve_eq_of_operandAddr (zext16_eq_ofNat b) rfl, rfl⟩,
    ⟨resolve_eq_of_operandAddr (zext16_add b s.x) rfl, rfl⟩,
    ⟨resolve_eq_of_operandAddr (zext16_add b s.y) rfl, rfl⟩,
    ⟨rfl, rfl⟩,
    ⟨resolve_eq_of_operandAddr (add_zext16 w s.x) rfl, lowByteOverflows_eq w s.x⟩,
    ⟨resolve_eq_of_operandAddr (add_zext16 w s.y) rfl, lowByteOverflows_eq w s.y⟩,
    ⟨resolve_eq_of_operandAddr hizx rfl, rfl⟩,
    ⟨resolve_eq_of_operandAddr hizy rfl, hcross⟩,
    ⟨rfl, rfl⟩⟩

/-! JMP indirect (R102). -/

theorem lo_eq_0xFF_iff (w : Word) : lo w = 0xFF ↔ w.toNat % 256 = 255 := by
  rw [← BitVec.toNat_inj, lo_toNat]
  rfl

/-- The start of a page, from its last byte. -/
theorem w16_zero_hi {w : Word} (h : w.toNat % 256 = 255) : w16 0x00 (hi w) = BitVec.ofNat 16 (w.toNat - 255) := by
  have hpage : 0 + 256 * (w.toNat / 256) = w.toNat - 255 := by omega
  rw [w16_eq_ofNat, hi_toNat, ← hpage]
  rfl

/-- Settles O16: the branch of the pointer read on its low byte is the statement's, and picks the same high byte. -/
theorem indirectPointerWrapsInItsPage : Obligations.IndirectPointerWrapsInItsPage := by
  intro s w high
  have hhigh : (if lo w = 0xFF then memRead s (w16 0x00 (hi w)) else memRead s (w + 1)) = busRead s.mem high := by
    by_cases h : w.toNat % 256 = 255
    · simp only [high, if_pos h, if_pos ((lo_eq_0xFF_iff w).mpr h), memRead, w16_zero_hi h]
    · simp only [high, if_neg h, if_neg (mt (lo_eq_0xFF_iff w).mp h), memRead, ofNat_toNat_add]
      rfl
  have haddr : operandAddr (.ind w) s =
      BitVec.ofNat 16 ((busRead s.mem w).toNat + 256 * (busRead s.mem high).toNat) := by
    rw [operandAddr, indirectTarget, hhigh, w16_eq_ofNat, memRead]
  exact ⟨resolve_eq_of_operandAddr haddr rfl, rfl⟩

end Sys2Proof.Machine
end

/-! ### The operand primitives, and the operand byte of an immediate instruction (40_engine.md R135, R136) -/

section
namespace Sys2Proof.Machine

open Sys2Proof.Spec

/-- Except in ACC mode a write-back is a Bus write to operand_address (R136). -/
theorem writeBack_eq_memWrite {o : Operand} (ho : o.mode ≠ .acc) (v : Byte) (s : State) :
    writeBack o v s = memWrite s.operandAddress v s := by
  cases o
  case acc => exact absurd rfl ho
  all_goals rfl

/-- Except in ACC and IMM mode the operand is the byte at operand_address (R135). -/
theorem operandValue_eq_memRead {o : Operand} (hacc : o.mode ≠ .acc) (himm : o.mode ≠ .imm) (s : State) :
    operandValue o s = memRead s s.operandAddress := by
  cases o
  case acc => exact absurd rfl hacc
  case imm => exact absurd rfl himm
  all_goals rfl

theorem exists_imm_of_mode {o : Operand} (h : o.mode = .imm) : ∃ v, o = .imm v := by
  cases o
  case imm v => exact ⟨v, rfl⟩
  all_goals cases h

/-- An immediate instruction is its opcode and its value (R90). -/
theorem encode_of_imm {i : Instr} {v : Byte} (h : i.operand = .imm v) : encode i = [i.opcode, v] := by
  cases i
  case adcImm | sbcImm | cmpImm | cpxImm | cpyImm | ldaImm | ldxImm | ldyImm | andImm | oraImm | eorImm =>
    cases h
    rfl
  all_goals cases h

/-- The fetch reads exactly the bytes of the instruction, in increasing address order (R71, R139). -/
theorem encode_instrAt (m : Memory) (addr : Word) :
    encode (instrAt m addr) = bytesAt m addr (instrAt m addr).size := by
  obtain ⟨h1, h2, h3⟩ := opcodeMap_entry (busRead m addr)
  rw [← encode_length]
  unfold instrAt
  cases hmap : opcodeMap (busRead m addr) with
  | f1 i => simp [h1 i hmap, bytesAt]
  | f2 k => simp [h2 k hmap, bytesAt, List.range_succ]
  | f3 k => simp [h3 k hmap, bytesAt, List.range_succ]

/-- The value of an immediate instruction fetched from memory is the byte after its opcode (R95, log 8). -/
theorem instrAt_imm {m : Memory} {addr : Word} {v : Byte} (h : (instrAt m addr).operand = .imm v) :
    v = busRead m (addr + 1) := by
  have hsize : (instrAt m addr).size = 2 := by rw [Instr.size, h]; rfl
  have hbytes : [(instrAt m addr).opcode, v] = bytesAt m addr 2 := by
    rw [← encode_of_imm h, encode_instrAt, hsize]
  exact (List.cons.inj (List.cons.inj hbytes).2).1

/-- Settles O18: the first three clauses are the modes' own; the resolver of IMM points at the byte after the opcode. -/
theorem operandPrimitives : Obligations.OperandPrimitives := by
  refine ⟨fun s v => ⟨rfl, rfl⟩, fun s v o ho => writeBack_eq_memWrite ho v s,
    fun s o hacc himm => operandValue_eq_memRead hacc himm s, fun s hmode => ?_⟩
  obtain ⟨v, hv⟩ := exists_imm_of_mode hmode
  rw [operandM, after, hv]
  exact instrAt_imm hv

end Sys2Proof.Machine
end

/-! ### The fetch cycle: documented and illegal bytes, halted and refused calls (40_engine.md R130, R134, R138, R140) -/

section
namespace Sys2Proof.Machine

open Sys2Proof.Spec

/-- Every documented instruction completes (R132). -/
theorem exists_exec_next {i : Instr} (h : Documented i) (s : State) : ∃ t, exec i s = .next t := by
  rw [exec_eq_runEntry i s h]
  exact ⟨_, runEntry_eq _ _ _ s⟩

/-- What the fetch reads is an instruction of the block (R106, R107). -/
theorem instrAt_wf (m : Memory) (addr : Word) : (instrAt m addr).wf = true := by
  obtain ⟨h1, h2, h3⟩ := opcodeMap_entry (busRead m addr)
  unfold instrAt
  cases hmap : opcodeMap (busRead m addr) with
  | f1 i => exact (h1 i hmap).1
  | f2 k => exact (h2 k hmap _).1
  | f3 k => exact (h3 k hmap _).1

/-- An illegal byte is fetched as the fatal entry (R107). -/
theorem instrAt_illegal {m : Memory} {addr : Word} (h : busRead m addr ∈ illegalOpcodes) :
    instrAt m addr = .unimplemented (busRead m addr) := by
  rw [instrAt, opcodeMap_illegal h]
  rfl

/-- Any other byte is fetched as a documented instruction (R106). -/
theorem instrAt_documented {m : Memory} {addr : Word} (h : busRead m addr ∉ illegalOpcodes) :
    Documented (instrAt m addr) :=
  documented_of_opcode_not_mem (instrAt_wf m addr) (instrAt_opcode m addr ▸ h)

/-- A fetch cycle that reads an illegal byte faults with it and its address (R138). -/
theorem clock_illegal {s : State} (hcycles : s.remainingCycles = 0) (h : busRead s.mem s.pc ∈ illegalOpcodes) :
    clock s = .fault (.unimplementedOpcode (busRead s.mem s.pc) s.pc) := by
  rw [clock, if_pos hcycles, instrAt_illegal h]
  rfl

/-- A fetch cycle whose instruction answers a state leaves that state, one cycle counted (R130). -/
theorem clock_fetch {s t : State} (hcycles : s.remainingCycles = 0) (h : exec (instrAt s.mem s.pc) s = .next t) :
    clock s = .next (countDown t) := by
  rw [clock, if_pos hcycles, h]

/-- A `clock()` with cycles left only counts down (R133). -/
theorem clock_countDown {s : State} (h : s.remainingCycles ≠ 0) : clock s = .next (countDown s) := by
  rw [clock, if_neg h]

/-- A `clock()` goes on, or is the fetch of an illegal byte (R138). -/
theorem clock_next_or_illegal (s : State) :
    (∃ t, clock s = .next t) ∨ (s.remainingCycles = 0 ∧ busRead s.mem s.pc ∈ illegalOpcodes) := by
  by_cases hcycles : s.remainingCycles = 0
  · by_cases hbyte : busRead s.mem s.pc ∈ illegalOpcodes
    · exact .inr ⟨hcycles, hbyte⟩
    · obtain ⟨t, ht⟩ := exists_exec_next (instrAt_documented hbyte) s
      exact .inl ⟨_, clock_fetch hcycles ht⟩
  · exact .inl ⟨_, clock_countDown hcycles⟩

/-- A call of a running block goes on, or is a `clock()` that fetches an illegal byte (R138, R140). -/
theorem hostCall_next_or_illegal {s : State} (hs : Running s) (call : HostCall) :
    (∃ t, hostCall call s = .next t) ∨
    (call = .clock ∧ s.remainingCycles = 0 ∧ busRead s.mem s.pc ∈ illegalOpcodes) := by
  rw [hostCall_running hs]
  cases call
  case clock => exact (clock_next_or_illegal s).imp id fun h => ⟨rfl, h⟩
  all_goals exact .inl ⟨_, rfl⟩

/-- A `clock()` call of a running block that fetches an illegal byte faults with it and its address (R138). -/
theorem hostCall_clock_illegal {s : State} (hs : Running s) (hcycles : s.remainingCycles = 0)
    (h : busRead s.mem s.pc ∈ illegalOpcodes) :
    hostCall .clock s = .fault (.unimplementedOpcode (busRead s.mem s.pc) s.pc) :=
  (hostCall_running hs .clock).trans (clock_illegal hcycles h)

/-- Settles O26: the step is a call of the same running block, its script aside. -/
theorem onlyIllegalBytesStopARunningBlock : Obligations.OnlyIllegalBytesStopARunningBlock := by
  intro s hs
  cases hcalls : s.hostCalls with
  | nil =>
    rw [step_of_nil hcalls]
    obtain hnext | ⟨-, hcycles, hbyte⟩ := hostCall_next_or_illegal hs .clock
    · exact .inl hnext
    · exact .inr ⟨hostCall_clock_illegal hs hcycles hbyte, hcycles, hbyte, rfl⟩
  | cons call rest =>
    have hs' : Running { s with hostCalls := rest } := hs
    rw [step_of_cons hcalls]
    obtain hnext | ⟨rfl, hcycles, hbyte⟩ := hostCall_next_or_illegal hs' call
    · exact .inl hnext
    · exact .inr ⟨hostCall_clock_illegal hs' hcycles hbyte, hcycles, hbyte, rfl⟩

/-- Settles O24. -/
theorem unimplementedOpcodeHalts : Obligations.UnimplementedOpcodeHalts := by
  refine ⟨exec_unimplemented, fun s hs hcycles hbyte => ?_⟩
  have hfault := hostCall_clock_illegal hs hcycles hbyte
  refine ⟨hfault, haltState (busRead s.mem s.pc) s.pc s, ?_, rfl, hostCall_halted rfl⟩
  rw [stateAfter, hfault]

/-- Settles O25. -/
theorem refusedCalls : Obligations.RefusedCalls := by
  intro s g
  refine ⟨fun hhalted call _ => hostCall_halted (Option.isSome_iff_ne_none.mpr hhalted) call,
    fun hhalted hreset call hcall => ?_⟩
  simp only [List.mem_cons, List.not_mem_nil, or_false] at hcall
  obtain rfl | rfl | rfl | rfl := hcall
  all_goals simp [hostCall, afterReset, hhalted, hreset]

/-- A step of a running block with an empty script is a `clock()` (R278, log 5). -/
theorem step_eq_clock {s : State} (hs : Running s) (hcalls : s.hostCalls = []) : step s = clock s :=
  (step_of_nil hcalls).trans (hostCall_running hs .clock)

/-- Settles O19: the fetch finds the instruction the decoder reads. -/
theorem stepRunsTheDecodedInstruction : Obligations.StepRunsTheDecodedInstruction := by
  refine ⟨fun s n i rest hs hdecode => ?_, fun s call calls hcalls => step_of_cons hcalls⟩
  obtain ⟨hrun, hcycles, hcalls⟩ := hs
  rw [step_eq_clock hrun hcalls, clock, if_pos hcycles, instrAt_of_decode_bytesAt hdecode]
  cases exec i s
  all_goals rfl

end Sys2Proof.Machine
end

/-! ### Durations and the countdown (40_engine.md R132, R133, R134, R137) -/

section
namespace Sys2Proof.Machine

open Sys2Proof.Spec

/-- A run of one step more is a step, then the run (R278). -/
theorem run_succ_of_step {s t : State} (h : step s = .next t) (k : Nat) :
    Host.Core.run core (k + 1) s = Host.Core.run core k t := by
  have hcore : core.step s = .next t := h
  simp only [Host.Core.run, hcore]

/-- With cycles left, a step of a running block with an empty script only counts down (R133, log 5). -/
theorem step_countDown {s : State} (hs : Running s) (hcalls : s.hostCalls = []) (hcycles : s.remainingCycles ≠ 0) :
    step s = .next (countDown s) :=
  (step_eq_clock hs hcalls).trans (clock_countDown hcycles)

/-- A running block with an empty script counts down as many cycles as it is given steps, and changes nothing else (R133). -/
theorem run_countDown {k : Nat} {s : State} (hs : Running s) (hcalls : s.hostCalls = []) (hk : k ≤ s.remainingCycles) :
    Host.Core.run core k s = .next { s with remainingCycles := s.remainingCycles - k } := by
  induction k generalizing s with
  | zero => rfl
  | succ k ih =>
    have hstep : step s = .next (countDown s) := step_countDown hs hcalls (Nat.ne_zero_of_lt hk)
    have hk' : k ≤ (countDown s).remainingCycles := Nat.le_sub_one_of_lt hk
    rw [run_succ_of_step hstep, ih (s := countDown s) hs hcalls hk', countDown_remainingCycles, Nat.sub_sub, Nat.add_comm 1]
    rfl

/-- Settles O20. -/
theorem countdownOnlyDecrements : Obligations.CountdownOnlyDecrements := by
  intro s n hs
  refine ⟨fun hcycles => (hostCall_running hs .clock).trans (clock_countDown hcycles.ne'), fun hcalls => ?_⟩
  have hrun := run_countDown (s := { s with remainingCycles := n }) hs hcalls le_rfl
  rwa [Nat.sub_self] at hrun

/-- An instruction takes at least one cycle (R106, R132). -/
theorem exec_remainingCycles_pos {i : Instr} {s t : State} (h : exec i s = .next t) : 1 ≤ t.remainingCycles := by
  obtain ⟨hdoc, rfl⟩ := exec_next h
  have hbase : 2 ≤ baseCycles i.opcode := two_le_baseCycles i hdoc
  dsimp only
  omega

/-- Settles O21: the first step runs the instruction and counts one cycle, so it leaves what one count from `t` would. -/
theorem instructionTakesItsDurationInClocks : Obligations.InstructionTakesItsDurationInClocks := by
  rintro s t ⟨hrun, hcycles, hcalls⟩ hexec
  have hpos : 1 ≤ t.remainingCycles := exec_remainingCycles_pos hexec
  refine ⟨hpos, fun k hk1 hk => ?_⟩
  obtain ⟨hhalted, hreset, hscript, -⟩ := instructionsKeepTheRestOfTheState _ s t hexec
  have hrun' : Running t := ⟨hreset.trans hrun.1, hhalted.trans hrun.2⟩
  have hcalls' : t.hostCalls = [] := hscript.trans hcalls
  have hfetch : step s = .next (countDown t) := (step_eq_clock hrun hcalls).trans (clock_fetch hcycles hexec)
  have hcount : step t = .next (countDown t) := step_countDown hrun' hcalls' (Nat.ne_zero_of_lt hpos)
  obtain ⟨j, rfl⟩ : ∃ j, k = j + 1 := Nat.exists_eq_add_of_le' hk1
  rw [run_succ_of_step hfetch, ← run_succ_of_step hcount, run_countDown hrun' hcalls' hk]

@[simp] theorem branch_pen (cond : Bool) (s : State) : (branch cond s).pen = false := by cases cond <;> rfl

/-- The extra cycles of a branch (R180): pages compared as numbers. -/
theorem branch_br (cond : Bool) (s : State) :
    (branch cond s).br =
      if cond = true then (if (s.pc + s.relativeOffset).toNat / 256 = s.pc.toNat / 256 then 1 else 2) else 0 := by
  cases cond
  · rfl
  · rw [← hi_toNat, ← hi_toNat, if_pos rfl]
    simp only [branch, if_pos, BitVec.toNat_inj]

/-- The semantics that report a possible extra cycle are those of the penalty-capable mnemonics (R137). -/
theorem semOf_pen (m : Mnemonic) (o : Operand) (s : State) : (semOf m o s).pen = decide (m ∈ penaltyCapable) := by
  cases m
  case bcc | bcs | beq | bmi | bne | bpl | bvc | bvs => exact branch_pen _ s
  all_goals rfl

/-- Only the branches cost cycles of their own, when taken (R132, R180). -/
theorem semOf_br (m : Mnemonic) (o : Operand) (s : State) :
    (semOf m o s).br =
      if branchTaken m s.p = true then
        (if (s.pc + s.relativeOffset).toNat / 256 = s.pc.toNat / 256 then 1 else 2)
      else 0 := by
  cases m
  case bcc | bcs | beq | bmi | bne | bpl | bvc | bvs => exact (branch_br _ s).trans (by simp [branchTaken])
  all_goals rfl

/-- Settles O22. -/
theorem everyInstructionHasItsDuration : Obligations.EveryInstructionHasItsDuration := by
  intro i s hdoc
  obtain ⟨t, ht⟩ := exists_exec_next hdoc s
  obtain ⟨-, rfl⟩ := exec_next ht
  have hpenalty : (crosses i s && (semOf i.mnemonic i.operand (after i s)).pen) = true ↔
      i.mnemonic ∈ penaltyCapable ∧ crosses i s = true := by
    rw [semOf_pen, Bool.and_eq_true, decide_eq_true_eq, and_comm]
  have hbranch : (semOf i.mnemonic i.operand (after i s)).br = branchCycles i s := semOf_br _ _ _
  refine ⟨_, ht, ?_⟩
  rw [← if_congr hpenalty rfl rfl, ← hbranch]
  rfl

end Sys2Proof.Machine
end

/-! ### What an instruction stores (40_engine.md R136, R139) -/

section
namespace Sys2Proof.Machine

open Sys2Proof.Spec

@[simp] theorem branch_mem (cond : Bool) (s : State) : (branch cond s).state.mem = s.mem := by cases cond <;> rfl

/-- In ACC mode a write-back leaves memory (R136). -/
theorem writeBack_mem_of_acc {o : Operand} (ho : o.mode = .acc) (v : Byte) (s : State) :
    (writeBack o v s).mem = s.mem := by
  cases o
  case acc => rfl
  all_goals cases ho

/-- The stores have no ACC form (R106, R213 to R215). -/
theorem mode_ne_acc_of_store {i : Instr} (h : i.mnemonic ∈ [Mnemonic.sta, .stx, .sty]) : i.operand.mode ≠ .acc := by
  intro hmode
  cases i
  case aslAcc | lsrAcc | rolAcc | rorAcc => exact absurd h (by decide)
  all_goals cases hmode

/-- Apart from the pushes, only the stores and the memory forms of the read-modify-writes write memory (R139). -/
theorem semOf_mem_of_stores_nothing {m : Mnemonic} {o : Operand} (hpush : m ∉ pushing)
    (hm : m ∉ storing ∨ m ∉ [Mnemonic.sta, .stx, .sty] ∧ o.mode = .acc) (s : State) :
    (semOf m o s).state.mem = s.mem := by
  cases m
  case pha | php | jsr | brk => exact absurd (by decide) hpush
  case sta | stx | sty => exact absurd hm (by simp [storing])
  case asl | lsr | rol | ror | inc | dec =>
    exact writeBack_mem_of_acc (hm.resolve_left (not_not_intro (by decide))).2 _ s
  case bcc | bcs | beq | bmi | bne | bpl | bvc | bvs => exact branch_mem _ s
  all_goals rfl

/-- Settles O55: the fetch leaves memory, so the semantic decides. -/
theorem formsThatStoreNothingKeepMemory : Obligations.FormsThatStoreNothingKeepMemory := by
  intro i s t h hpush hform b
  obtain ⟨-, rfl⟩ := exec_next h
  have hm : i.mnemonic ∉ storing ∨ i.mnemonic ∉ [Mnemonic.sta, .stx, .sty] ∧ i.operand.mode = .acc :=
    hform.imp_right fun hacc => ⟨fun hstore => mode_ne_acc_of_store hstore hacc, hacc⟩
  exact congrArg (busRead · b) (semOf_mem_of_stores_nothing hpush hm (fetched i.operand s))

/-- A store, or the memory form of a read-modify-write, is one Bus write to operand_address (R136, R213 to R215). -/
theorem semOf_mem_of_storing {m : Mnemonic} {o : Operand} (hm : m ∈ storing) (ho : o.mode ≠ .acc) (s : State) :
    ∃ v, (semOf m o s).state.mem = busWrite s.mem s.operandAddress v := by
  cases m
  case sta | stx | sty => exact ⟨_, rfl⟩
  case asl | lsr | rol | ror | inc | dec => exact ⟨_, congrArg State.mem (writeBack_eq_memWrite ho _ s)⟩
  all_goals exact absurd hm (by decide)

/-- Settles O56: the one Bus write is to the address the resolver left. -/
theorem storesChangeOnlyTheAddressedByte : Obligations.StoresChangeOnlyTheAddressedByte := by
  intro i s t h hm ho b hb
  obtain ⟨-, rfl⟩ := exec_next h
  obtain ⟨v, hv⟩ := semOf_mem_of_storing hm ho (fetched i.operand s)
  exact (congrArg (busRead · b) hv).trans (busRead_busWrite_of_not_sameRamByte hb s.mem v)

end Sys2Proof.Machine
end

/-! ### Arithmetic and compares: Encoding lines, results, flags and durations (41_arithmetic.md R160 to R164, R166) -/

section
namespace Sys2Proof.Machine

open Sys2Proof.Spec

/-- An Encoding line is a finite question: what the opcode map says at each of the 256 opcode bytes (R106). -/
theorem encodingIs_of_opcodeMap {m : Mnemonic} {line : List (Byte × Mode × Nat)}
    (h : ∀ op : Byte, (entryInfo op).1 = m ↔ (op, (entryInfo op).2, baseCycles op) ∈ line) : EncodingIs m line := by
  intro i hwf
  have hrow := h i.opcode
  rwa [entryInfo_opcode i hwf] at hrow

/-- An instruction whose semantic adds no branch cycles leaves its mnemonic's state, with the duration of R132. -/
theorem exec_of_mnemonic {i : Instr} {m : Mnemonic} (hm : i.mnemonic = m) (hdoc : m ≠ .unimplemented) {s : State}
    (hbr : (semOf m i.operand (after i s)).br = 0) :
    exec i s = .next
      { (semOf m i.operand (after i s)).state with
        remainingCycles := cycles i s (semOf m i.operand (after i s)).pen } := by
  subst hm
  have hpenalty : (crosses i s && (semOf i.mnemonic i.operand (after i s)).pen) = true ↔
      (semOf i.mnemonic i.operand (after i s)).pen = true ∧ crosses i s = true := by
    rw [Bool.and_eq_true, and_comm]
  have hcycles : baseCycles i.opcode + (if crosses i s && (semOf i.mnemonic i.operand (after i s)).pen then 1 else 0) +
      (semOf i.mnemonic i.operand (after i s)).br = cycles i s (semOf i.mnemonic i.operand (after i s)).pen := by
    rw [hbr, Nat.add_zero, if_congr hpenalty rfl rfl, cycles]
  rw [exec_eq_runEntry i s hdoc, ← hcycles]
  rfl

/-! Addition with carry (R160). -/

theorem sumByte_eq_adcResult (a m : Byte) (c : Bool) : sumByte a m c = adcResult a m c := by
  apply BitVec.eq_of_toNat_eq
  rw [sumByte_toNat, adcResult, BitVec.toNat_ofNat]

/-- The overflow of an addition: the signed sum does not fit a byte (R166). -/
theorem sumOverflow_sumByte (a m : Byte) (c : Bool) :
    sumOverflow a m (sumByte a m c) =
      decide (a.toInt + m.toInt + c.toNat < -128 ∨ 127 < a.toInt + m.toInt + c.toNat) := by
  have ha : a.toNat < 256 := a.isLt
  have hm : m.toNat < 256 := m.isLt
  have hc : c.toNat ≤ 1 := c.toNat_le
  rw [sumOverflow_eq, sumByte_toNat, Bool.eq_iff_iff]
  simp only [Bool.and_eq_true, beq_iff_eq, bne_iff_ne, ne_eq, decide_eq_decide, decide_eq_true_eq, BitVec.toInt_eq_toNat_cond]
  split <;> split <;> omega

theorem addFlags_eq_adcFlags (a m : Byte) (p : Flags) : addFlags a m p = adcFlags a m p := by
  rw [addFlags, setNZ_eq_nz, sumOverflow_sumByte, sumCarry_eq, sumByte_eq_adcResult, adcFlags]

/-! Subtraction is the addition of the inverted operand (R161): an inverted byte is 255 - M unsigned and -1 - M signed. -/

theorem xor_0xFF_toNat (m : Byte) : (m ^^^ 0xFF).toNat = 255 - m.toNat :=
  (congrArg BitVec.toNat BitVec.xor_allOnes).trans BitVec.toNat_not

theorem xor_0xFF_toInt (m : Byte) : (m ^^^ 0xFF).toInt = -1 - m.toInt := by
  have hm : m.toNat < 256 := m.isLt
  rw [BitVec.toInt_eq_toNat_cond, BitVec.toInt_eq_toNat_cond, xor_0xFF_toNat]
  split <;> split <;> omega

/-- A + (255 - M) + C and A - M - (1 - C) differ by 256. -/
theorem sumByte_xor_0xFF (a m : Byte) (c : Bool) : sumByte a (m ^^^ 0xFF) c = sbcResult a m c := by
  have hm : m.toNat < 256 := m.isLt
  apply BitVec.eq_of_toNat_eq
  rw [sumByte_toNat, xor_0xFF_toNat, sbcResult, BitVec.toNat_ofInt]
  omega

/-- The carry out of the addition is the absence of a borrow, and the two signed results are equal (R166). -/
theorem addFlags_xor_0xFF (a m : Byte) (p : Flags) : addFlags a (m ^^^ 0xFF) p = sbcFlags a m p := by
  have hm : m.toNat < 256 := m.isLt
  have hc : p.c.toNat ≤ 1 := p.c.toNat_le
  have hcarry : 255 < a.toNat + (m ^^^ 0xFF).toNat + p.c.toNat ↔ m.toNat + (1 - p.c.toNat) ≤ a.toNat := by
    rw [xor_0xFF_toNat]
    omega
  have hsigned : a.toInt + (m ^^^ 0xFF).toInt + p.c.toNat = a.toInt - m.toInt - (1 - p.c.toNat) := by
    rw [xor_0xFF_toInt]
    omega
  rw [addFlags, setNZ_eq_nz, sumOverflow_sumByte, sumCarry_eq, sumByte_xor_0xFF, hsigned, decide_eq_decide.mpr hcarry,
    sbcFlags]

/-- With carry-in 1 - c a subtraction takes back what an addition with carry-in c added (R166). -/
theorem sbcResult_adcResult (a m : Byte) (c : Bool) : sbcResult (adcResult a m c) m (!c) = a := by
  have ha : a.toNat < 256 := a.isLt
  have hc : (!c).toNat + c.toNat = 1 := by cases c <;> rfl
  apply BitVec.eq_of_toNat_eq
  rw [sbcResult, adcResult, BitVec.toNat_ofInt, BitVec.toNat_ofNat]
  omega

/-! Compares (R162 to R164). -/

theorem compareFlags_eq_cmpFlags (r m : Byte) (p : Flags) : compareFlags r m p = cmpFlags r m p := by
  have hm : m.toNat < 256 := m.isLt
  have hcarry : decide (m ≤ r) = decide (m.toNat ≤ r.toNat) := rfl
  have hdiff : r - m = BitVec.ofNat 8 (r.toNat + 256 - m.toNat) := by
    apply BitVec.eq_of_toNat_eq
    rw [BitVec.toNat_sub, BitVec.toNat_ofNat]
    omega
  rw [compareFlags, setNZ_eq_nz, hcarry, hdiff, cmpFlags]

/-! The instructions: the Encoding line, and the semantic's state with its result and flags in numbers. -/

/-- Settles O28. -/
theorem adcResult : Obligations.AdcResult := by
  refine ⟨encodingIs_of_opcodeMap (by decide), fun i s hm => ?_⟩
  rw [exec_of_mnemonic hm (by decide) rfl, ← sumByte_eq_adcResult, ← addFlags_eq_adcFlags]
  rfl

/-- Settles O29. -/
theorem sbcResult : Obligations.SbcResult := by
  refine ⟨encodingIs_of_opcodeMap (by decide), fun i s hm => ?_⟩
  rw [exec_of_mnemonic hm (by decide) rfl, ← sumByte_xor_0xFF, ← addFlags_xor_0xFF]
  rfl

/-- Settles O30. -/
theorem compareResults : Obligations.CompareResults := by
  refine ⟨encodingIs_of_opcodeMap (by decide), encodingIs_of_opcodeMap (by decide), encodingIs_of_opcodeMap (by decide),
    fun i s => ?_⟩
  simp only [← compareFlags_eq_cmpFlags]
  exact ⟨fun hm => exec_of_mnemonic hm (by decide) rfl, fun hm => exec_of_mnemonic hm (by decide) rfl,
    fun hm => exec_of_mnemonic hm (by decide) rfl⟩

/-- Settles O32. -/
theorem sbcUndoesAdc : Obligations.SbcUndoesAdc := by
  intro i j s hi hj
  refine ⟨_, adcResult.2 i s hi, fun t' ha hc hm => ⟨_, sbcResult.2 j t' hj, ?_⟩⟩
  dsimp only at ha ⊢
  rw [ha, hc, hm, sbcResult_adcResult]

end Sys2Proof.Machine
end

/-! ### The D flag: only its writers and the instructions that push it can tell (10_state.md R25, 41_arithmetic.md R165) -/

section
namespace Sys2Proof.Machine

open Sys2Proof.Spec

/-- The state with D set to `d`. -/
def State.withD (d : Bool) (s : State) : State := { s with p := { s.p with d := d } }

/-- The effect that leaves its state with D set to `d`. -/
def Effect.withD (d : Bool) (e : Effect) : Effect := { e with state := e.state.withD d }

/-- Neither the opcode fetch nor a resolver reads D (R93, R130). -/
theorem fetched_withD (d : Bool) (o : Operand) (s : State) : fetched o (s.withD d) = (fetched o s).withD d := rfl

theorem writeBack_withD (d : Bool) (o : Operand) (v : Byte) (s : State) :
    writeBack o v (s.withD d) = (writeBack o v s).withD d := by
  cases o
  all_goals rfl

theorem branch_withD (d cond : Bool) (s : State) : branch cond (s.withD d) = (branch cond s).withD d := by
  cases cond
  all_goals rfl

theorem shiftResult_withD (d : Bool) (o : Operand) (r : Byte) (carry : Bool) (s : State) :
    shiftResult o r carry (s.withD d) = (shiftResult o r carry s).withD d := by
  rw [shiftResult, writeBack_withD]
  rfl

/-- A semantic that neither writes nor pushes D does the same whatever D holds (R165): a write-back and a branch have their
lemmas, and no other names D. -/
theorem semOf_withD {m : Mnemonic} (hm : m ∉ [Mnemonic.cld, .sed, .plp, .rti, .php, .brk]) (d : Bool) (o : Operand)
    (s : State) : semOf m o (s.withD d) = (semOf m o s).withD d := by
  cases m
  case cld | sed | plp | rti | php | brk => exact absurd (by decide) hm
  case asl | lsr | rol | ror => exact shiftResult_withD d o _ _ s
  case inc | dec =>
    simp only [semOf, semInc, semDec, writeBack_withD]
    rfl
  case bcc | bcs | beq | bmi | bne | bpl | bvc | bvs => exact branch_withD d _ s
  all_goals rfl

/-- Settles O31. -/
theorem decimalFlagHasNoEffect : Obligations.DecimalFlagHasNoEffect := by
  intro i s d hdoc hm
  obtain ⟨t, ht⟩ := exists_exec_next hdoc s
  obtain ⟨-, rfl⟩ := exec_next ht
  have hwriters : i.mnemonic ∉ [Mnemonic.cld, .sed, .plp, .rti] := fun h => hm (List.mem_append_left [Mnemonic.php, .brk] h)
  refine ⟨_, ht, semOf_d hwriters _ _, ?_⟩
  change exec i (s.withD d) = _
  rw [exec_eq_runEntry i _ hdoc, runEntry_eq, fetched_withD, semOf_withD hm]
  rfl

end Sys2Proof.Machine
end

/-! ### Shifts and rotates: Encoding lines, results, flags and durations (42_shift_rotate.md R170 to R173) -/

section
namespace Sys2Proof.Machine

open Sys2Proof.Spec

/-! The results as numbers (R170 to R173). -/

theorem shiftLeft_one_eq_ofNat (m : Byte) : m <<< 1 = BitVec.ofNat 8 (2 * m.toNat) := by
  apply BitVec.eq_of_toNat_eq
  rw [BitVec.toNat_shiftLeft, BitVec.toNat_ofNat, Nat.shiftLeft_eq, mul_comm]

theorem ushiftRight_one_eq_ofNat (m : Byte) : m >>> 1 = BitVec.ofNat 8 (m.toNat / 2) := by
  have hm : m.toNat < 256 := m.isLt
  apply BitVec.eq_of_toNat_eq
  rw [BitVec.toNat_ushiftRight, BitVec.toNat_ofNat, Nat.shiftRight_eq_div_pow]
  omega

/-- A flag widened to a byte, as a number. -/
theorem flagByte_toNat (c : Bool) : ((BitVec.ofBool c).setWidth 8).toNat = c.toNat := by cases c <;> rfl

/-- ROL's carry-in enters the bit the shift vacated, so the OR is a sum (R172). -/
theorem rotateLeft_eq_ofNat (m : Byte) (c : Bool) :
    m <<< 1 ||| (BitVec.ofBool c).setWidth 8 = BitVec.ofNat 8 (2 * m.toNat + c.toNat) := by
  have hc : c.toNat < 2 := c.toNat_lt
  have hshift : 2 * m.toNat % 256 = 2 ^ 1 * (m.toNat % 128) := by omega
  apply BitVec.eq_of_toNat_eq
  rw [shiftLeft_one_eq_ofNat, BitVec.toNat_or, flagByte_toNat, BitVec.toNat_ofNat, BitVec.toNat_ofNat, hshift,
    ← Nat.two_pow_add_eq_or_of_lt hc]
  omega

/-- ROR's carry-in enters bit 7, above the shifted operand, so the OR is a sum (R173). -/
theorem rotateRight_eq_ofNat (m : Byte) (c : Bool) :
    (BitVec.ofBool c).setWidth 8 <<< 7 ||| m >>> 1 = BitVec.ofNat 8 (128 * c.toNat + m.toNat / 2) := by
  have hhalf : m.toNat / 2 < 2 ^ 7 := Nat.div_lt_of_lt_mul m.isLt
  have hc : c.toNat < 2 := c.toNat_lt
  apply BitVec.eq_of_toNat_eq
  rw [BitVec.toNat_or, BitVec.toNat_shiftLeft, flagByte_toNat, BitVec.toNat_ushiftRight, BitVec.toNat_ofNat,
    Nat.shiftLeft_eq, Nat.shiftRight_eq_div_pow, mul_comm c.toNat, Nat.mod_eq_of_lt (by omega : 2 ^ 7 * c.toNat < 2 ^ 8),
    pow_one, ← Nat.two_pow_add_eq_or_of_lt hhalf]
  omega

/-- Bit 0 of a byte, by its number. -/
theorem bit0_eq (m : Byte) : m.getLsbD 0 = decide (m.toNat % 2 = 1) := Nat.testBit_zero m.toNat

/-! The state a shift or rotate leaves. -/

/-- In ACC mode a write-back writes A (R136). -/
theorem writeBack_of_acc {o : Operand} (ho : o.mode = .acc) (v : Byte) (s : State) : writeBack o v s = { s with a := v } := by
  cases o
  case acc => rfl
  all_goals cases ho

/-- The one write of a read-modify-write instruction is its `WriteBack` (R136). -/
theorem writeBack_after_eq_modified (i : Instr) (s : State) (r : Byte) :
    writeBack i.operand r (after i s) = modified i s r := by
  unfold modified
  split
  · next hacc => exact writeBack_of_acc hacc r _
  · next hmem => exact writeBack_eq_memWrite hmem r _

/-- A semantic that ends in `shiftResult` leaves the state `shifted`, in the base cycles: it is not penalty-capable (R137). -/
theorem exec_of_shiftResult {i : Instr} {m : Mnemonic} (hm : i.mnemonic = m) (hdoc : m ≠ .unimplemented) {s : State}
    {r : Byte} {c : Bool} (hsem : semOf m i.operand (after i s) = shiftResult i.operand r c (after i s)) :
    exec i s = .next (shifted i s r c) := by
  have hcycles : cycles i s false = baseCycles i.opcode := by simp [cycles]
  have hstate : (shiftResult i.operand r c (after i s)).state =
      { modified i s r with p := nz r { s.p with c := c } } := by
    simp [shiftResult, plain, ← writeBack_after_eq_modified, setNZ_eq_nz, after]
  rw [exec_of_mnemonic hm hdoc (congrArg Effect.br hsem), hsem, hstate, shifted, ← hcycles]
  rfl

/-- Settles O33. -/
theorem shiftAndRotateResults : Obligations.ShiftAndRotateResults := by
  refine ⟨encodingIs_of_opcodeMap (by decide), encodingIs_of_opcodeMap (by decide), encodingIs_of_opcodeMap (by decide),
    encodingIs_of_opcodeMap (by decide), fun i s => ?_⟩
  simp only [← shiftLeft_one_eq_ofNat, ← ushiftRight_one_eq_ofNat, ← rotateLeft_eq_ofNat, ← rotateRight_eq_ofNat,
    ← bit7_eq, ← bit0_eq]
  exact ⟨fun hm => exec_of_shiftResult hm (by decide) rfl, fun hm => exec_of_shiftResult hm (by decide) rfl,
    fun hm => exec_of_shiftResult hm (by decide) rfl, fun hm => exec_of_shiftResult hm (by decide) rfl⟩

end Sys2Proof.Machine
end

/-! ### Branches: Encoding lines, targets and durations (43_branch.md R180 to R188) -/

section
namespace Sys2Proof.Machine

open Sys2Proof.Spec

/-- The state in which a branch's semantic runs: PC past both bytes, the displacement staged (R105). -/
theorem fetched_rel (disp : Byte) (s : State) :
    fetched (.rel disp) s = { s with pc := s.pc + 2, relativeOffset := BitVec.ofInt 16 disp.toInt } := by
  have hpc : s.pc + 1 + 1 = s.pc + 2 := BitVec.add_assoc s.pc 1 1
  rw [← hpc]
  rfl

/-- A branch writes PC, and only when taken (R180). -/
theorem branch_state (cond : Bool) (s : State) :
    (branch cond s).state = { s with pc := if cond = true then s.pc + s.relativeOffset else s.pc } := by
  cases cond
  all_goals rfl

/-- Addition to a word is addition of integers modulo 65536, whatever the sign of the displacement (R180). -/
theorem add_ofInt_eq_ofInt (w : Word) (k : Int) : w + BitVec.ofInt 16 k = BitVec.ofInt 16 (w.toNat + k) := by
  rw [BitVec.ofInt_add, BitVec.ofInt_natCast, BitVec.ofNat_toNat, BitVec.setWidth_eq]

/-- The base count of 2 and the branch's own cycles are the duration by cases: 2, 3 or 4 (R132, R180). -/
theorem two_add_branch_br (cond : Bool) (s : State) :
    2 + (branch cond s).br =
      if cond = true then (if (s.pc + s.relativeOffset).toNat / 256 = s.pc.toNat / 256 then 3 else 4) else 2 := by
  simp only [branch_br, apply_ite (2 + ·)]

/-- A dispatch entry in REL mode with base count 2, whose semantic is `Branch(cond)`, leaves the state `branched` (R180). -/
theorem runEntry_of_branch {op disp : Byte} {cond : Bool} {sem : Operand → State → Effect} {s : State}
    (hbase : baseCycles op = 2) (hsem : sem (.rel disp) (fetched (.rel disp) s) = branch cond (fetched (.rel disp) s)) :
    runEntry op (.rel disp) sem s = .next (branched cond disp s) := by
  rw [runEntry_eq, hsem, hbase, branch_pen, Bool.and_false, if_neg Bool.false_ne_true, Nat.add_zero, two_add_branch_br,
    branch_state, fetched_rel, add_ofInt_eq_ofInt]
  rfl

/-- Settles O34: the eight entries differ in the opcode and in the flag their condition names. -/
theorem branchResults : Obligations.BranchResults := by
  refine ⟨encodingIs_of_opcodeMap (by decide), encodingIs_of_opcodeMap (by decide), encodingIs_of_opcodeMap (by decide),
    encodingIs_of_opcodeMap (by decide), encodingIs_of_opcodeMap (by decide), encodingIs_of_opcodeMap (by decide),
    encodingIs_of_opcodeMap (by decide), encodingIs_of_opcodeMap (by decide), fun disp s => ?_⟩
  exact ⟨runEntry_of_branch (by decide) rfl, runEntry_of_branch (by decide) rfl, runEntry_of_branch (by decide) rfl,
    runEntry_of_branch (by decide) rfl, runEntry_of_branch (by decide) rfl, runEntry_of_branch (by decide) rfl,
    runEntry_of_branch (by decide) rfl, runEntry_of_branch (by decide) rfl⟩

end Sys2Proof.Machine
end

/-! ### Jumps, subroutines, BRK and RTI: Encoding lines, results and durations (44_jump_subroutine.md R190 to R194) -/

section
namespace Sys2Proof.Machine

open Sys2Proof.Spec

/-- A dispatch entry whose semantic reports no extra cycles leaves the semantic's state, in the base cycles (R132). -/
theorem runEntry_of_plain {op : Byte} {o : Operand} {sem : Operand → State → Effect} {s t : State} {base : Nat}
    (hbase : baseCycles op = base) (hsem : sem o (fetched o s) = plain t) :
    runEntry op o sem s = .next { t with remainingCycles := base } := by
  rw [runEntry_eq, hsem, hbase, plain, Bool.and_false, if_neg Bool.false_ne_true]
  rfl

/-- The state in which an instruction without operand bytes runs its semantic: PC past the opcode (R94, R130). -/
theorem fetched_imp (s : State) : fetched .imp s = { s with pc := s.pc + 1 } := resolve_eq_self rfl _

/-- The state in which an ABS instruction runs its semantic: PC past its three bytes, operand_address the operand (R98). -/
theorem fetched_abs (w : Word) (s : State) :
    fetched (.abs w) s = { s with pc := s.pc + 3, operandAddress := w } := by
  have hpc : s.pc + 1 + 2 = s.pc + 3 := BitVec.add_assoc s.pc 1 2
  rw [← hpc]
  rfl

/-- Settles O35: JMP moves operand_address, which the resolver of either form sets, to PC. -/
theorem jumpResults : Obligations.JumpResults := by
  refine ⟨encodingIs_of_opcodeMap (by decide), fun s w => ?_⟩
  have habs : semJmp (.abs w) (fetched (.abs w) s) = plain { s with pc := w, operandAddress := w } := rfl
  have hind : semJmp (.ind w) (fetched (.ind w) s) =
      plain
        { s with
          pc := (after (.jmpInd w) s).operandAddress
          operandAddress := (after (.jmpInd w) s).operandAddress } := rfl
  exact ⟨runEntry_of_plain (by decide) habs, runEntry_of_plain (by decide) hind⟩

/-! Subroutines (R191, R192). -/

/-- Where JSR's semantic runs, PC - 1 is the address of its last byte (R191). -/
theorem semJsr_fetched (w : Word) (s : State) :
    semJsr (.abs w) (fetched (.abs w) s) = plain
      { s with
        mem := busWrite (busWrite s.mem (stackByte s.sp) (hi (s.pc + 2))) (stackByte (s.sp - 1)) (lo (s.pc + 2))
        sp := s.sp - 2
        pc := w
        operandAddress := w } := by
  have hret : s.pc + 2 = s.pc + 3 - 1 := by bv_omega
  have hsp : s.sp - 2 = s.sp - 1 - 1 := by bv_omega
  rw [fetched_abs, stackByte_eq_stackAddress, stackByte_eq_stackAddress, hret, hsp]
  rfl

theorem semRts_fetched (s : State) :
    semRts .imp (fetched .imp s) = plain
      { s with
        sp := s.sp + 2
        pc := w16 (busRead s.mem (stackByte (s.sp + 1))) (busRead s.mem (stackByte (s.sp + 2))) + 1 } := by
  have hsp : s.sp + 2 = s.sp + 1 + 1 := (BitVec.add_assoc s.sp 1 1).symm
  rw [fetched_imp, stackByte_eq_stackAddress, stackByte_eq_stackAddress, hsp]
  rfl

/-- Settles O36. -/
theorem subroutineResults : Obligations.SubroutineResults :=
  ⟨encodingIs_of_opcodeMap (by decide), encodingIs_of_opcodeMap (by decide), fun s w =>
    ⟨runEntry_of_plain (by decide) (semJsr_fetched w s), runEntry_of_plain (by decide) (semRts_fetched s)⟩⟩

/-- The two stack bytes that a push of one byte and then another leaves, for every SP (R30). -/
theorem busRead_two_stackBytes (m : Memory) (sp : Byte) (first second : Byte) :
    busRead (busWrite (busWrite m (stackByte sp) first) (stackByte (sp - 1)) second) (stackByte (sp - 1)) = second ∧
    busRead (busWrite (busWrite m (stackByte sp) first) (stackByte (sp - 1)) second) (stackByte sp) = first := by
  have hsp : sp ≠ sp - 1 := by bv_omega
  simp only [stackByte_eq_stackAddress, busRead_stack, if_true, if_neg hsp, and_self]

/-- Settles O38: RTS pulls the two bytes JSR pushed, and one past the address they form is the next instruction. -/
theorem rtsUndoesJsr : Obligations.RtsUndoesJsr := by
  intro s w
  obtain ⟨-, -, hresults⟩ := subroutineResults
  refine ⟨_, _, (hresults s w).1, (hresults _ w).2, ?_⟩
  have hlow : s.sp - 2 + 1 = s.sp - 1 := by bv_omega
  have hhigh : s.sp - 2 + 2 = s.sp := BitVec.sub_add_cancel s.sp 2
  have hpc : s.pc + 2 + 1 = s.pc + 3 := BitVec.add_assoc s.pc 2 1
  obtain ⟨hpullLow, hpullHigh⟩ := busRead_two_stackBytes s.mem s.sp (hi (s.pc + 2)) (lo (s.pc + 2))
  simp only [hlow, hhigh, hpullLow, hpullHigh, w16_lo_hi, hpc]

/-! The software interrupt and the return from an interrupt (R193, R194, R262). -/

theorem hi_eq_ofNat (w : Word) : hi w = BitVec.ofNat 8 (w.toNat / 256) := by
  rw [← hi_toNat, BitVec.ofNat_toNat, BitVec.setWidth_eq]

theorem lo_eq_ofNat (w : Word) : lo w = BitVec.ofNat 8 w.toNat := by
  rw [BitVec.ofNat_toNat]
  rfl

theorem entryStatus_eq_ofNat (b : Bool) (p : Flags) :
    entryStatus b p = BitVec.ofNat 8 ((pRead p).toNat + 16 * b.toNat) := by
  rw [← entryStatus_toNat, BitVec.ofNat_toNat, BitVec.setWidth_eq]

/-- The memory interrupt entry leaves is its three pushes (R262). -/
theorem interruptEntry_mem (vector : Word) (b : Bool) (s : State) :
    (interruptEntry vector b s).mem = entryMemory b s.pc s := by
  have hsp : s.sp - 2 = s.sp - 1 - 1 := by bv_omega
  rw [entryMemory, stackByte_eq_stackAddress, stackByte_eq_stackAddress, stackByte_eq_stackAddress, hsp, ← hi_eq_ofNat,
    ← lo_eq_ofNat, ← entryStatus_eq_ofNat]
  rfl

/-- The pushes do not show outside RAM, so a vector there is read as it was before them (R262). -/
theorem interruptEntry_pc {vector : Word} (hlow : inRam vector = false) (hhigh : inRam (vector + 1) = false) (b : Bool)
    (s : State) :
    (interruptEntry vector b s).pc = w16 (busRead s.mem vector) (busRead s.mem (vector + 1)) := by
  simp only [interruptEntry, memRead16, memRead_push_outside hlow, memRead_push_outside hhigh]
  rfl

/-- Interrupt entry leaves the state `entered`, where its vector lies outside RAM (R262). -/
theorem interruptEntry_eq_entered {vector : Word} (hlow : inRam vector = false) (hhigh : inRam (vector + 1) = false)
    (b : Bool) (s : State) : interruptEntry vector b s = entered vector b s.pc s := by
  have hsp : s.sp - 3 = s.sp - 1 - 1 - 1 := by bv_omega
  apply State.ext
  case sp => exact (interruptEntry_sp vector b s).trans hsp.symm
  case mem => exact interruptEntry_mem vector b s
  case pc => exact interruptEntry_pc hlow hhigh b s
  all_goals simp [entered]

/-- BRK's return address is past the opcode and the padding byte (R193). -/
theorem semBrk_fetched (s : State) :
    semBrk .imp (fetched .imp s) = plain (entered irqVector true (s.pc + 2) s) := by
  have hpc : s.pc + 2 = s.pc + 1 + 1 := (BitVec.add_assoc s.pc 1 1).symm
  rw [fetched_imp, semBrk, interruptEntry_eq_entered (by decide) (by decide), hpc]
  rfl

/-- The return from an interrupt, by the three stack bytes it pulls (R194). -/
theorem interruptReturn_eq (s : State) :
    interruptReturn s =
      { s with
        p := Flags.ofByte (busRead s.mem (stackByte (s.sp + 1)))
        pc := w16 (busRead s.mem (stackByte (s.sp + 2))) (busRead s.mem (stackByte (s.sp + 3)))
        sp := s.sp + 3 } := by
  have hsecond : s.sp + 2 = s.sp + 1 + 1 := (BitVec.add_assoc s.sp 1 1).symm
  have hthird : s.sp + 3 = s.sp + 1 + 1 + 1 := by bv_omega
  rw [stackByte_eq_stackAddress, stackByte_eq_stackAddress, stackByte_eq_stackAddress, hsecond, hthird]
  rfl

theorem semRti_fetched (s : State) :
    semRti .imp (fetched .imp s) = plain
      { s with
        p := Flags.ofByte (busRead s.mem (stackByte (s.sp + 1)))
        pc := w16 (busRead s.mem (stackByte (s.sp + 2))) (busRead s.mem (stackByte (s.sp + 3)))
        sp := s.sp + 3 } := by
  rw [fetched_imp, semRti, interruptReturn_eq]

/-- Settles O37. -/
theorem brkAndRtiResults : Obligations.BrkAndRtiResults :=
  ⟨encodingIs_of_opcodeMap (by decide), encodingIs_of_opcodeMap (by decide), fun s =>
    ⟨runEntry_of_plain (by decide) (semBrk_fetched s), runEntry_of_plain (by decide) (semRti_fetched s)⟩⟩

end Sys2Proof.Machine
end

/-! ### Stack instructions: Encoding lines, results, and the pull that undoes a push (45_stack.md R201 to R204) -/

section
namespace Sys2Proof.Machine

open Sys2Proof.Spec

theorem exec_pha (s : State) :
    exec .pha s = .next
      { s with pc := s.pc + 1, mem := busWrite s.mem (stackByte s.sp) s.a, sp := s.sp - 1, remainingCycles := 3 } := by
  rw [stackByte_eq_stackAddress]
  exact runEntry_of_plain (t := push s.a { s with pc := s.pc + 1 }) (by decide) (by rw [fetched_imp, semPha])

theorem exec_php (s : State) :
    exec .php s = .next
      { s with
        pc := s.pc + 1
        mem := busWrite s.mem (stackByte s.sp) (phpStatus s.p)
        sp := s.sp - 1
        remainingCycles := 3 } := by
  rw [stackByte_eq_stackAddress]
  exact runEntry_of_plain (t := push (phpStatus s.p) { s with pc := s.pc + 1 }) (by decide) (by rw [fetched_imp, semPhp])

theorem exec_pla (s : State) :
    exec .pla s = .next
      { s with
        pc := s.pc + 1
        a := busRead s.mem (stackByte (s.sp + 1))
        p := nz (busRead s.mem (stackByte (s.sp + 1))) s.p
        sp := s.sp + 1
        remainingCycles := 4 } := by
  rw [stackByte_eq_stackAddress, ← setNZ_eq_nz]
  exact runEntry_of_plain
    (t := { pullState { s with pc := s.pc + 1 } with a := pullByte s, p := setNZ (pullByte s) s.p }) (by decide)
    (by rw [fetched_imp]; rfl)

theorem exec_plp (s : State) :
    exec .plp s = .next
      { s with
        pc := s.pc + 1
        p := Flags.ofByte (busRead s.mem (stackByte (s.sp + 1)))
        sp := s.sp + 1
        remainingCycles := 4 } := by
  rw [stackByte_eq_stackAddress]
  exact runEntry_of_plain (t := { pullState { s with pc := s.pc + 1 } with p := Flags.ofByte (pullByte s) }) (by decide)
    (by rw [fetched_imp]; rfl)

/-- Settles O40. -/
theorem stackResults : Obligations.StackResults :=
  ⟨encodingIs_of_opcodeMap (by decide), encodingIs_of_opcodeMap (by decide), encodingIs_of_opcodeMap (by decide),
    encodingIs_of_opcodeMap (by decide), fun s => ⟨exec_pha s, exec_php s, exec_pla s, exec_plp s⟩⟩

/-- The stack byte a push leaves, for every SP (R30). -/
theorem busRead_stackByte_same (m : Memory) (sp v : Byte) :
    busRead (busWrite m (stackByte sp) v) (stackByte sp) = v := by
  rw [stackByte_eq_stackAddress, busRead_stack, if_pos rfl]

/-- Settles O41: the pull reads the byte the push wrote, and bits 5 and 4, which PHP sets in it, are not among the six flags. -/
theorem pullsUndoPushes : Obligations.PullsUndoPushes := by
  intro s
  have hsp : s.sp - 1 + 1 = s.sp := BitVec.sub_add_cancel s.sp 1
  have hpc : s.pc + 1 + 1 = s.pc + 2 := BitVec.add_assoc s.pc 1 1
  constructor
  · refine ⟨_, _, exec_php s, exec_plp _, ?_⟩
    simp only [hsp, hpc, busRead_stackByte_same, ofByte_phpStatus]
  · refine ⟨_, _, exec_pha s, exec_pla _, ?_⟩
    simp only [hsp, hpc, busRead_stackByte_same]

end Sys2Proof.Machine
end

/-! ### Loads, stores and transfers: Encoding lines, results, flags and durations (46_load_store_transfer.md R210 to R221) -/

section
namespace Sys2Proof.Machine

open Sys2Proof.Spec

/-- An instruction whose semantic reports no extra cycles leaves the semantic's state, in the base cycles: no page crossing
adds one (R132, R137). -/
theorem exec_of_plain {i : Instr} {m : Mnemonic} (hm : i.mnemonic = m) (hdoc : m ≠ .unimplemented) {s t : State}
    (hsem : semOf m i.operand (after i s) = plain t) :
    exec i s = .next { t with remainingCycles := baseCycles i.opcode } := by
  subst hm
  rw [exec_eq_runEntry i s hdoc, runEntry_of_plain rfl hsem]

/-- An instruction of mode IMP and 2 base cycles runs its semantic with PC past the opcode (R94, R132). -/
theorem exec_of_imp_two_cycles (i : Instr) {s t : State} (hdoc : i.mnemonic ≠ .unimplemented) (himp : i.operand = .imp)
    (hbase : baseCycles i.opcode = 2) (hsem : semOf i.mnemonic .imp { s with pc := s.pc + 1 } = plain t) :
    exec i s = .next { t with remainingCycles := 2 } := by
  have hplain : semOf i.mnemonic i.operand (after i s) = plain t := by rw [after, himp, fetched_imp, hsem]
  rw [exec_of_plain rfl hdoc hplain, hbase]

/-- Settles O42: a load is penalty-capable, and its N and Z are `setNZ` of the byte it loads. -/
theorem loadResults : Obligations.LoadResults := by
  refine ⟨encodingIs_of_opcodeMap (by decide), encodingIs_of_opcodeMap (by decide), encodingIs_of_opcodeMap (by decide),
    fun i s => ?_⟩
  simp only [← setNZ_eq_nz]
  exact ⟨fun hm => exec_of_mnemonic hm (by decide) rfl, fun hm => exec_of_mnemonic hm (by decide) rfl,
    fun hm => exec_of_mnemonic hm (by decide) rfl⟩

/-- Settles O43: a store is one `memWrite` at operand_address, and its semantic reports no extra cycle. -/
theorem storeResults : Obligations.StoreResults := by
  refine ⟨encodingIs_of_opcodeMap (by decide), encodingIs_of_opcodeMap (by decide), encodingIs_of_opcodeMap (by decide),
    fun i s => ?_⟩
  exact ⟨fun hm => exec_of_plain hm (by decide) rfl, fun hm => exec_of_plain hm (by decide) rfl,
    fun hm => exec_of_plain hm (by decide) rfl⟩

/-- Settles O44: each transfer is an IMP entry of 2 cycles; TXS is the one whose semantic has no `setNZ`. -/
theorem transferResults : Obligations.TransferResults := by
  refine ⟨encodingIs_of_opcodeMap (by decide), encodingIs_of_opcodeMap (by decide), encodingIs_of_opcodeMap (by decide),
    encodingIs_of_opcodeMap (by decide), encodingIs_of_opcodeMap (by decide), encodingIs_of_opcodeMap (by decide),
    fun s => ?_⟩
  simp only [← setNZ_eq_nz]
  exact ⟨exec_of_imp_two_cycles .tax (by decide) rfl (by decide) rfl,
    exec_of_imp_two_cycles .tay (by decide) rfl (by decide) rfl,
    exec_of_imp_two_cycles .txa (by decide) rfl (by decide) rfl,
    exec_of_imp_two_cycles .tya (by decide) rfl (by decide) rfl,
    exec_of_imp_two_cycles .tsx (by decide) rfl (by decide) rfl,
    exec_of_imp_two_cycles .txs (by decide) rfl (by decide) rfl⟩

end Sys2Proof.Machine
end

/-! ### Logic, increments and flags: Encoding lines, results, flags and durations (47_logical.md R230 to R233, 48_incdec.md
R240 to R245, 49_flags_nop.md R250 to R257) -/

section
namespace Sys2Proof.Machine

open Sys2Proof.Spec

/-! AND, ORA, EOR and BIT (R230 to R233). -/

/-- A semantic that ends in `logicalResult` leaves its result in A with N and Z from it, and is penalty-capable (R137). -/
theorem exec_of_logicalResult {i : Instr} {m : Mnemonic} (hm : i.mnemonic = m) (hdoc : m ≠ .unimplemented) {s : State}
    {r : Byte} (hsem : semOf m i.operand (after i s) = logicalResult r (after i s)) :
    exec i s = .next { after i s with a := r, p := nz r s.p, remainingCycles := cycles i s true } := by
  rw [exec_of_mnemonic hm hdoc (congrArg Effect.br hsem), hsem, ← setNZ_eq_nz]
  rfl

/-- Bit 6 of a byte, by its number. -/
theorem bit6_eq (b : Byte) : b.getLsbD 6 = decide (64 ≤ b.toNat % 128) := by
  revert b
  decide

/-- Two bytes have an empty intersection when no bit is set in both (R233). -/
theorem and_beq_zero_eq_decide (a m : Byte) :
    ((a &&& m) == 0x00) = decide (∀ k : Fin 8, ¬ (a.getLsbD k = true ∧ m.getLsbD k = true)) := by
  rw [Bool.eq_iff_iff, beq_iff_eq, decide_eq_true_eq]
  constructor
  · rintro h k ⟨ha, hm⟩
    have hbit : (a &&& m).getLsbD k = false := by rw [h]; exact BitVec.getLsbD_zero
    rw [BitVec.getLsbD_and, ha, hm] at hbit
    exact Bool.noConfusion hbit
  · intro h
    refine BitVec.eq_of_getLsbD_eq (y := 0#8) fun k hk => ?_
    rw [BitVec.getLsbD_and, BitVec.getLsbD_zero, Bool.and_eq_false_iff, ← Bool.not_eq_true, ← Bool.not_eq_true]
    exact Decidable.not_and_iff_or_not.mp (h ⟨k, hk⟩)

/-- The flags of BIT in numbers (R233). -/
theorem bitFlags_eq (a m : Byte) (p : Flags) :
    bitFlags a m p =
      { p with
        z := decide (∀ k : Fin 8, ¬ (a.getLsbD k = true ∧ m.getLsbD k = true))
        n := decide (128 ≤ m.toNat)
        v := decide (64 ≤ m.toNat % 128) } := by
  rw [bitFlags, and_beq_zero_eq_decide, bit7_eq, bit6_eq]

/-- Settles O45: the three results are the bitwise operations on A and M; BIT keeps A and writes `bitFlags`. -/
theorem logicalAndBitResults : Obligations.LogicalAndBitResults := by
  refine ⟨encodingIs_of_opcodeMap (by decide), encodingIs_of_opcodeMap (by decide), encodingIs_of_opcodeMap (by decide),
    encodingIs_of_opcodeMap (by decide), fun i s => ⟨?_, fun hbit => ?_⟩⟩
  · rintro (hm | hm | hm)
    · refine ⟨s.a &&& operandM i s, exec_of_logicalResult hm (by decide) rfl, fun k _ => ?_⟩
      simp [hm]
    · refine ⟨s.a ||| operandM i s, exec_of_logicalResult hm (by decide) rfl, fun k _ => ?_⟩
      simp [hm]
    · refine ⟨s.a ^^^ operandM i s, exec_of_logicalResult hm (by decide) rfl, fun k _ => ?_⟩
      simp [hm]
  · rw [← bitFlags_eq]
    exact exec_of_mnemonic hbit (by decide) rfl

/-! Increments and decrements (R240 to R245). -/

theorem add_one_eq_ofNat (v : Byte) : v + 1 = BitVec.ofNat 8 (v.toNat + 1) := rfl

theorem add_0xFF_eq_ofNat (v : Byte) : v + 0xFF = BitVec.ofNat 8 (v.toNat + 255) := rfl

/-- A read-modify-write semantic that ends in `setNZ` leaves the state `modified` with N and Z from the byte written, in the
base cycles (R136, R137). -/
theorem exec_of_writeBack_setNZ {i : Instr} {m : Mnemonic} (hm : i.mnemonic = m) (hdoc : m ≠ .unimplemented) {s : State}
    {r : Byte}
    (hsem : semOf m i.operand (after i s) =
      plain { writeBack i.operand r (after i s) with p := setNZ r (writeBack i.operand r (after i s)).p }) :
    exec i s = .next { modified i s r with p := nz r s.p, remainingCycles := baseCycles i.opcode } := by
  rw [exec_of_plain hm hdoc hsem, writeBack_p, writeBack_after_eq_modified, setNZ_eq_nz]
  rfl

/-- Settles O46: INC and DEC are one write-back, the others IMP entries of 2 cycles; all end in `setNZ`. -/
theorem incrementResults : Obligations.IncrementResults := by
  refine ⟨encodingIs_of_opcodeMap (by decide), encodingIs_of_opcodeMap (by decide), encodingIs_of_opcodeMap (by decide),
    encodingIs_of_opcodeMap (by decide), encodingIs_of_opcodeMap (by decide), encodingIs_of_opcodeMap (by decide),
    fun i s => ?_⟩
  simp only [← add_one_eq_ofNat, ← add_0xFF_eq_ofNat]
  refine ⟨fun hm => exec_of_writeBack_setNZ hm (by decide) rfl, fun hm => exec_of_writeBack_setNZ hm (by decide) rfl, ?_⟩
  simp only [← setNZ_eq_nz]
  exact ⟨exec_of_imp_two_cycles .inx (by decide) rfl (by decide) rfl,
    exec_of_imp_two_cycles .iny (by decide) rfl (by decide) rfl,
    exec_of_imp_two_cycles .dex (by decide) rfl (by decide) rfl,
    exec_of_imp_two_cycles .dey (by decide) rfl (by decide) rfl⟩

/-- Settles O47: each is an IMP entry of 2 cycles whose semantic is one `SetFlag`, or nothing for NOP. -/
theorem flagInstructionResults : Obligations.FlagInstructionResults :=
  ⟨encodingIs_of_opcodeMap (by decide), encodingIs_of_opcodeMap (by decide), encodingIs_of_opcodeMap (by decide),
    encodingIs_of_opcodeMap (by decide), encodingIs_of_opcodeMap (by decide), encodingIs_of_opcodeMap (by decide),
    encodingIs_of_opcodeMap (by decide), encodingIs_of_opcodeMap (by decide), fun s =>
    ⟨exec_of_imp_two_cycles .clc (by decide) rfl (by decide) rfl,
      exec_of_imp_two_cycles .cld (by decide) rfl (by decide) rfl,
      exec_of_imp_two_cycles .cli (by decide) rfl (by decide) rfl,
      exec_of_imp_two_cycles .clv (by decide) rfl (by decide) rfl,
      exec_of_imp_two_cycles .sec (by decide) rfl (by decide) rfl,
      exec_of_imp_two_cycles .sed (by decide) rfl (by decide) rfl,
      exec_of_imp_two_cycles .sei (by decide) rfl (by decide) rfl,
      exec_of_imp_two_cycles .nop (by decide) rfl (by decide) rfl⟩⟩

end Sys2Proof.Machine
end

/-! ### Interrupts: entry, masking, and the return that undoes an entry (60_exceptions.md R262 to R264, R269) -/

section
namespace Sys2Proof.Machine

open Sys2Proof.Spec

/-- Settles O48: a vector from 0x8000 on lies outside RAM with the byte after it, which below 0xFFFF does not wrap to 0x0000. -/
theorem interruptEntryPushesPcAndStatus : Obligations.InterruptEntryPushesPcAndStatus := by
  intro vector b s hlow hhigh
  have hnext : (vector + 1).toNat = vector.toNat + 1 := by bv_omega
  exact interruptEntry_eq_entered (inRam_eq_false (by omega)) (inRam_eq_false (by omega)) b s

/-- A taken `irq()` is the entry with B = 0 through 0xFFFE (R263). -/
theorem cpuIrq_eq_entered {s : State} (hclear : s.p.i = false) :
    cpuIrq s = { entered irqVector false s.pc s with remainingCycles := Config.irqCycles } := by
  rw [cpuIrq, hclear, if_neg Bool.false_ne_true, interruptEntry_eq_entered (by decide) (by decide)]

/-- `nmi()` is the entry with B = 0 through 0xFFFA (R264). -/
theorem cpuNmi_eq_entered (s : State) :
    cpuNmi s = { entered nmiVector false s.pc s with remainingCycles := Config.nmiCycles } := by
  rw [cpuNmi, interruptEntry_eq_entered (by decide) (by decide)]

/-- Settles O49: neither interrupt call reads remaining_cycles. -/
theorem irqIsMaskedByIAndNmiIsNot : Obligations.IrqIsMaskedByIAndNmiIsNot := by
  intro s hs
  refine ⟨fun hset => ?_, fun hclear => ?_, ?_⟩
  · rw [hostCall_running hs, cpuIrq, if_pos hset]
  · rw [hostCall_running hs, cpuIrq_eq_entered hclear]
    rfl
  · rw [hostCall_running hs, cpuNmi_eq_entered]
    rfl

/-- The three stack bytes an interrupt entry leaves, for every SP: no push overwrites another's byte (R262). -/
theorem busRead_entryMemory (b : Bool) (pc : Word) (s : State) :
    busRead (entryMemory b pc s) (stackByte (s.sp - 2)) = entryStatus b s.p ∧
    busRead (entryMemory b pc s) (stackByte (s.sp - 1)) = lo pc ∧
    busRead (entryMemory b pc s) (stackByte s.sp) = hi pc := by
  have hlow : s.sp - 1 ≠ s.sp - 2 := by bv_omega
  have hhigh : s.sp ≠ s.sp - 2 := by bv_omega
  have hbytes : s.sp ≠ s.sp - 1 := by bv_omega
  simp only [entryMemory, ← hi_eq_ofNat, ← lo_eq_ofNat, ← entryStatus_eq_ofNat, stackByte_eq_stackAddress, busRead_stack,
    if_true, if_neg hlow, if_neg hhigh, if_neg hbytes, and_self]

/-- RTI after an interrupt entry goes back to the PC the entry pushed, with the flags and SP from before it (R194, R269). -/
theorem exec_rti_entered (vector : Word) (b : Bool) (pc : Word) (n : Nat) (s : State) :
    exec .rti { entered vector b pc s with remainingCycles := n } =
      .next { s with pc := pc, mem := entryMemory b pc s, remainingCycles := 6 } := by
  obtain ⟨-, -, hresults⟩ := brkAndRtiResults
  obtain ⟨hstatus, hlow, hhigh⟩ := busRead_entryMemory b pc s
  have hsp1 : s.sp - 3 + 1 = s.sp - 2 := by bv_omega
  have hsp2 : s.sp - 3 + 2 = s.sp - 1 := by bv_omega
  have hsp3 : s.sp - 3 + 3 = s.sp := BitVec.sub_add_cancel s.sp 3
  rw [(hresults _).2]
  simp only [entered, hsp1, hsp2, hsp3, hstatus, hlow, hhigh, ofByte_entryStatus, w16_lo_hi]

/-- Settles O39: BRK, `nmi()` and a taken `irq()` all leave the state `entered`. -/
theorem rtiUndoesInterruptEntry : Obligations.RtiUndoesInterruptEntry := by
  intro s
  obtain ⟨-, -, hresults⟩ := brkAndRtiResults
  refine ⟨⟨_, _, (hresults s).1, exec_rti_entered _ _ _ _ s, rfl⟩, ?_, fun hclear => ?_⟩
  · rw [cpuNmi_eq_entered]
    exact ⟨_, exec_rti_entered _ _ _ _ s, rfl⟩
  · rw [cpuIrq_eq_entered hclear]
    exact ⟨_, exec_rti_entered _ _ _ _ s, rfl⟩

end Sys2Proof.Machine
end

/-! ### Timing and reset (70_reset_and_hazards.md R300 to R302, R306) -/

section
namespace Sys2Proof.Machine

open Sys2Proof.Spec

/-- The state with remaining_cycles set to `n`. -/
def State.withCycles (n : Nat) (s : State) : State := { s with remainingCycles := n }

/-- The effect that leaves its state with remaining_cycles set to `n`. -/
def Effect.withCycles (n : Nat) (e : Effect) : Effect := { e with state := e.state.withCycles n }

/-- Neither the opcode fetch nor a resolver reads remaining_cycles (R93, R130). -/
theorem fetched_withCycles (n : Nat) (o : Operand) (s : State) :
    fetched o (s.withCycles n) = (fetched o s).withCycles n := rfl

theorem writeBack_withCycles (n : Nat) (o : Operand) (v : Byte) (s : State) :
    writeBack o v (s.withCycles n) = (writeBack o v s).withCycles n := by
  cases o
  all_goals rfl

theorem branch_withCycles (n : Nat) (cond : Bool) (s : State) :
    branch cond (s.withCycles n) = (branch cond s).withCycles n := by
  cases cond
  all_goals rfl

/-- No semantic reads or writes remaining_cycles (R306): a write-back, whose mode decides what it writes, and a branch, whose
condition does, have their lemmas. -/
theorem semOf_withCycles (m : Mnemonic) (n : Nat) (o : Operand) (s : State) :
    semOf m o (s.withCycles n) = (semOf m o s).withCycles n := by
  cases m
  case asl | lsr | rol | ror | inc | dec =>
    simp only [semOf, semAsl, semLsr, semRol, semRor, semInc, semDec, shiftResult, writeBack_withCycles]
    rfl
  case bcc | bcs | beq | bmi | bne | bpl | bvc | bvs => exact branch_withCycles n _ s
  all_goals rfl

theorem exists_eq_unimplemented {i : Instr} (h : ¬ Documented i) : ∃ op, i = .unimplemented op := by
  cases i
  case unimplemented op => exact ⟨op, rfl⟩
  all_goals exact absurd Mnemonic.noConfusion h

/-- Settles O23: the fatal entry reads PC alone; every other instruction is one run of its dispatch entry, whose duration
overwrites remaining_cycles. -/
theorem effectsDoNotDependOnTiming : Obligations.EffectsDoNotDependOnTiming := by
  intro i s n
  by_cases hdoc : Documented i
  · change exec i (s.withCycles n) = exec i s
    rw [exec_eq_runEntry i _ hdoc, exec_eq_runEntry i _ hdoc, runEntry_eq, runEntry_eq, fetched_withCycles,
      semOf_withCycles]
    rfl
  · obtain ⟨op, rfl⟩ := exists_eq_unimplemented hdoc
    rfl

/-- `reset()` is served in every state that is not halted, before the first reset too (R278, R300). -/
theorem hostCall_reset {s : State} (h : s.halted = none) : hostCall .reset s = .next (cpuReset s) := by
  simp [hostCall, h]

/-- Settles O50. -/
theorem resetReinitialisesTheCpu : Obligations.ResetReinitialisesTheCpu :=
  fun s h => ⟨cpuReset s, hostCall_reset h, rfl, by rw [cpuReset_p]; decide⟩

/-- The reset vector of the blank cartridge reads 0x0000 (log 1, log 3), the PC of `State.reset`. -/
theorem cpuReset_constructed_blank : cpuReset (State.constructed Memory.blank) = State.reset := by
  have hvector : memRead16 (State.constructed Memory.blank) resetVector = 0x0000 := by decide
  rw [cpuReset, hvector]
  rfl

/-- Settles O51. -/
theorem resetStateIsConstructionThenReset : Obligations.ResetStateIsConstructionThenReset :=
  (hostCall_reset rfl).trans (congrArg Host.Outcome.next cpuReset_constructed_blank)

/-- Settles O59. -/
theorem resetMeetsTheInvariant : Obligations.ResetMeetsTheInvariant := ⟨⟨rfl, rfl⟩, blank_wf⟩

end Sys2Proof.Machine
end
